-- ==== Sys2Proof/Word.lean ====
section
/-! DEFINITION. Word.lean: the word types of the Zathes-512 model (R6, R7: bit 0 is the least significant bit). -/

namespace Sys2Proof

/-- A 32-bit register word (R461). -/
abbrev Word := BitVec 32

/-- A byte of memory. -/
abbrev Byte := BitVec 8

/-- A 64-bit register pair or counter (R462). -/
abbrev Word64 := BitVec 64

end Sys2Proof
end

