-- ==== Sys2Proof/Syntax.lean ====
section
/-! DEFINITION. Syntax.lean: the commands of the block, one constructor of Instr per row of spec/opcode_table.json, and
the data the commands carry. A row is one indivisible step of the device (95_what_each_step_holds.md); what a step reads
from outside the device (a packet, a measured temperature, the bytes a host read returns) is an operand. -/

namespace Sys2Proof

/-- A cluster id, y × 32 + x (R14). -/
abbrev Cl := Fin 512
/-- A sprig index in its cluster (07_sprigs.md, Terms). -/
abbrev Sp := Fin 16
/-- A context of a sprig. -/
abbrev Cx := Fin 4
/-- An instance id 1–64; 0 is management (00_scope.md, Terms). -/
abbrev InstId := Fin 65
/-- A ring (R346). -/
abbrev RingId := Fin 256
/-- A compute die C0–C7. -/
abbrev Die := Fin 8
/-- A port die, and the port of the same number (13_links.md, Terms). -/
abbrev PortId := Fin 4
/-- A calendar, numbered by class and then unit (R72). -/
abbrev CalId := Fin 97
/-- A die-link module, edge × 4 + module (05_fabric.md, D2D page). -/
abbrev ModId := Fin 56
/-- A register function: 0 the PF, n the VF n (R464). -/
abbrev Fn := Fin 65

/-- Format A of R164, less its OP field. -/
structure FmtA where
  pred : Fin 8
  pneg : Bool
  rd : Fin 32
  rs1 : Fin 32
  rs2 : Fin 32
  fn : BitVec 7
  deriving DecidableEq, Repr

/-- Format B of R164, less its OP field. -/
structure FmtB where
  pred : Fin 8
  pneg : Bool
  rd : Fin 32
  rs1 : Fin 32
  imm : BitVec 12
  deriving DecidableEq, Repr

/-- Format C of R164, less its OP field. -/
structure FmtC where
  pred : Fin 8
  pneg : Bool
  imm : BitVec 22
  deriving DecidableEq, Repr

/-- What the device samples at a tick boundary: the phase error in ns (R38), the 20 part temperatures in 0.1 °C in the order
of the THM page (R420), the coolant (R423), the tick's mean input power (R422), each die's critical-path margin verdict
(R395), the followers that did not receive the master's boundary (R44), and the lane generators whose seeds are not complete (R248),
cluster × 33 + generator: 16 ME lanes, 16 sprigs, the draw unit. -/
structure BoundaryIn where
  phaseErr : Int
  temps : List Int
  coolant : Int
  inputW : Nat
  marginShort : BitVec 12
  marginOver : BitVec 12
  noMaster : BitVec 8
  seedLate : List Nat
  deriving DecidableEq, Repr

/-- Where an uncorrectable error stands (R285); in a cluster store, with its line. -/
inductive UeLoc where
  | line (dpa : Nat)
  | carriedWorking (c : Cl) (line : Fin 16384)
  | carriedCommitted (c : Cl)
  | carriedBoth (c : Cl)
  | mirror (c : Cl)
  | coupling (c : Cl)
  | sparse (c : Cl)
  | suState (c : Cl)
  | plainStore (c : Cl) (line : Fin 16384)
  | sprigMem (c : Cl) (p : Sp)
  | generationMap (h : InstId)
  | segmentTable (h : InstId)
  deriving DecidableEq, Repr

/-- A Kaluri packet (R309): its header fields, its source address and port, its payload, and, of one received, whether its GCM
tag verifies under the key slot it names (R324). -/
structure KtPacket where
  ver : BitVec 4
  typ : BitVec 4
  unlocked : Bool
  prot : Bool
  keyId : Bool
  retx : Bool
  srcInst : Nat
  dstInst : Nat
  channel : Nat
  srcIncarn : Word
  dstIncarn : Word
  psn : Word
  offset : Word64
  tick : Word
  payload : List Byte
  ipv6 : Bool
  srcIp : BitVec 128
  srcPort : BitVec 16
  authOk : Bool
  deriving DecidableEq, Repr

/-- The PTP messages the ordinary clock knows (R306). -/
inductive PtpKind where
  | sync | followUp | delayReq | delayResp | announce | mgmtSet | other
  deriving DecidableEq, Repr

/-- A PTP message: whether a Sync is of two steps, the four timestamps its exchange has gathered (ns), its grandmaster, and the
verdict of the default BMCA on its sender (R306, R307). -/
structure PtpMsg where
  kind : PtpKind
  domain : BitVec 7
  twoStep : Bool
  t1 : Int
  t2 : Int
  t3 : Int
  t4 : Int
  gmId : Word64
  bmcaState : BitVec 4
  deriving DecidableEq, Repr

/-- A sensor packet as it passes the PCS/MAC boundary (R328, R331), with its PTP time and its offset into the tick. -/
structure SensorPkt where
  port : PortId
  subport : BitVec 2
  dstIp : BitVec 128
  udpPort : BitVec 16
  src : BitVec 128
  ipv6 : Bool
  vlan : Option (BitVec 12)
  payload : List Byte
  ptpNs : Word64
  offsetNs : Word
  deriving DecidableEq, Repr

/-- A frame that the port has sorted (R300, R328) and holds in its receive buffer. -/
inductive FrameBody where
  | kt (p : KtPacket)
  | ptp (m : PtpMsg)
  | sensor (p : SensorPkt)
  | arp (sub : BitVec 2) (target : Word) (senderMac : BitVec 48) (senderIp : Word)
  | neighbour (sub : BitVec 2) (target : BitVec 128) (senderMac : BitVec 48) (senderIp : BitVec 128)
  | pfc
  deriving DecidableEq, Repr

/-- A received UDP datagram over IPv4 or IPv6 (R299): addresses, ports and checksum, the UDP payload, what AES-256-GCM opens of
that payload when it is a protected Kaluri packet, none where the tag does not verify (R324), and what it says when it is a PTP
message (R306). -/
structure Udp where
  ipv6 : Bool
  src : BitVec 128
  dst : BitVec 128
  srcPort : BitVec 16
  dstPort : BitVec 16
  check : BitVec 16
  payload : List Byte
  opened : Option (List Byte)
  ptp : Option PtpMsg
  deriving DecidableEq, Repr

/-- What an Ethernet frame carries. -/
inductive EthBody where
  | udp (u : Udp)
  | ptp (m : PtpMsg)
  | arp (target : Word) (senderMac : BitVec 48) (senderIp : Word)
  | neighbour (target : BitVec 128) (senderMac : BitVec 48) (senderIp : BitVec 128)
  | pause
  | pfc
  | other
  deriving DecidableEq, Repr

/-- A received Ethernet frame (R297–R300): its length with FCS, the sub-port it came in on, the VIDs of its tags, whether it has IP
options, extension headers or is a fragment, and its PTP time and offset into the tick at the PCS/MAC boundary (R307). -/
structure EthFrame where
  length : Nat
  fcsOk : Bool
  fecCorrected : Nat
  fecLost : Bool
  sub : BitVec 2
  tags : List (BitVec 12)
  ipOptions : Bool
  fragment : Bool
  ptpNs : Word64
  offsetNs : Word
  body : EthBody
  deriving DecidableEq, Repr

/-- A send entry of a plan image (R315). -/
structure SendEntry where
  chan : Fin 64
  src : Word64
  len : Nat
  dstOff : Word64
  alt : Bool
  k : Nat
  deriving DecidableEq, Repr

/-- An export or receive group (R228): lead-relative cluster, block, and on receive the first ghost slot. -/
structure XGroup where
  loc : Nat
  block : Nat
  ghost : Nat
  deriving DecidableEq, Repr

/-- A peer of a hedge that spans modules (R228, R322). -/
structure Peer where
  port : PortId
  flow : Fin 64
  exports : List XGroup
  receives : List XGroup
  deriving DecidableEq, Repr

/-- A window declaration (R265): V, B0, B1 and the length, in 2 MiB units. -/
structure WinDecl where
  v : Nat
  b0 : Nat
  b1 : Nat
  len : Nat
  deriving DecidableEq, Repr

/-- One cluster's carried state and its mirror area (R270, R273). -/
structure CarriedDecl where
  loc : Nat
  lines : List Nat
  dmem : List (Nat × Nat × Nat)
  mirrorSlice : Nat
  mirrorOff : Nat
  deriving DecidableEq, Repr

/-- One sprig of a cluster as the image loads it (R160, R172): the four programs, the data memory and the queue depths. -/
structure SprigImage where
  loc : Nat
  sprig : Sp
  programs : List (Nat × List Word)
  dmem : List Byte
  depths : List (Nat × List Nat)
  deriving DecidableEq, Repr

/-- One cluster's unit configuration (R137, R179, R190, R207). -/
structure UnitImage where
  loc : Nat
  layDepth : Nat
  layPeriod : Nat
  suMode : BitVec 2
  suCarry : Bool
  suSheets : BitVec 2
  suEnc : Word64
  suOrder : Word64
  suSheetVa : List Word64
  aclass : Bool
  tags : List (Nat × List Nat)
  deriving DecidableEq, Repr

/-- One line of the calendar requirement (R368). -/
inductive CalReq where
  | hbm (loc : Nat) (slots : List Nat)
  | dieLink (src dst : Nat) (slots : List Nat)
  | byIndex (cal : CalId) (slots : List Nat)
  deriving DecidableEq, Repr

/-- What the sections of a plan image say (R366). The manual gives the header and the directory as bytes (R365) and no
byte layout for the section bodies, so PLAN_LOAD carries what they say. -/
structure Plan where
  sprigs : List SprigImage
  units : List UnitImage
  windows : List WinDecl
  carried : List CarriedDecl
  sends : List SendEntry
  checkpoints : List (Nat × Bool)
  bestBase : Nat
  k : Nat
  smax : Nat
  peers : List Peer
  margin : Nat
  calendar : List CalReq
  figures : List (Nat × Nat × List Nat)
  deriving DecidableEq, Repr

/-- A firmware image as the boot ROM reads it (R433): its header fields, and the verdicts on its key hash for P0 and P1, on
its signature and on its digest. -/
structure FwImage where
  magic : Word
  version : Word
  svn : Nat
  length : Nat
  keyOk : BitVec 2
  sigOk : Bool
  digestOk : Bool
  imageDigest : BitVec 384
  deriving DecidableEq, Repr

/-- What a start-up stage finds (R431–R445). -/
structure StageIn where
  fwA : FwImage
  fwB : FwImage
  cfgReadErr : BitVec 2
  stacksTrained : BitVec 8
  edgesFailed : BitVec 10
  diesFailed : BitVec 8
  portsOk : BitVec 4
  clustersFailed : List (Die × Fin 8 × Fin 9)
  pwrBase : Nat
  classAPass : BitVec 4
  bootMs : Nat
  slotId : BitVec 4
  slotOpen : BitVec 4
  ptpNs : Nat
  deriving DecidableEq, Repr

/-- The bank measurements of R406: terminal more than 1 V reversed, volts (mV) after 50 ms of charging, the time (µs) from
40 V to 50 V, and the ESR in 0.1 mΩ. -/
structure BankIn where
  reversed : Bool
  mv50ms : Nat
  us40to50 : Nat
  esr : Nat
  mvNow : Nat
  deriving DecidableEq, Repr

/-- The readings of a telemetry snapshot (R476) in 0.1 W. -/
structure TelIn where
  dies : List Nat
  hbm : List Nat
  insts : List Nat
  deriving DecidableEq, Repr

/-- The SPDM 1.2 requests of R446. -/
inductive SpdmReq where
  | getVersion | getCapabilities | negotiateAlgorithms | getDigests | getCertificate | challenge
  | getMeasurements (index : Nat)
  | keyExchange | pskExchange | other
  deriving DecidableEq, Repr

/-- The PLDM sensors of R447. -/
inductive PldmSensor where
  | temp (n : Fin 20) | coolant | vin | vhold | inputPower | holdClass | fieldLine (n : Fin 17) | override
  deriving DecidableEq, Repr

/-- What resets the device (R430). -/
inductive ResetKind where
  | powerUp | perst | hotReset
  deriving DecidableEq, Repr

/-- The units a hang can strike (R381). -/
inductive UnitKind where
  | me | su | draw
  deriving DecidableEq, Repr

/-- The PTP messages the device sends on its own timers (R306). -/
inductive PtpTx where
  | delayReq | sync | announce | followUp | delayResp
  deriving DecidableEq, Repr

/-- The commands: one constructor per row of spec/opcode_table.json, in the table's order. -/
inductive Instr where
  | tickBoundary (i : BoundaryIn)
  | workStart
  | coppiceStart
  | commitStart
  | commitPoint (h : InstId)
  | mirrorCopyDone (c : Cl)
  | calendarSlotStart (cal : CalId)
  | tckPeriodWrite (v : Word)
  | tckCfgWrite (v : Word)
  | tckT0Write (hi : Bool) (v : Word)
  | tckInofsWrite (v : Word)
  | start (ptpNs : Nat)
  | step (ptpNs : Nat)
  | tickInEdge (offsetNs : Int) (gapNs : Nat)
  | tickInEdgeMissed
  | ppsInEdge (ptpNs : Word64) (gapNs : Nat) (widthNs : Nat)
  | trigInputEdge (n : Fin 4) (ptpNs : Word64)
  | lockAcquired
  | lockSourceLost
  | lockSourceReturn (phaseErr : Int)
  | followerHoldoverLimit (d : Die)
  | patrolScrubStep (d : Die) (lines : Nat) (errs : List (UeLoc × Bool))
  | pcMigrationStep (d : Die) (granules : Nat)
  | pcReadSwitch (d : Die)
  | noiseTrimPass (c : Cl) (block : Fin 64) (ones : List Nat)
  | flashWearStep (finished : Bool)
  | telemetrySnapshot (t : TelIn) (finished : Bool)
  | calTableWrite (cal : CalId) (w : Fin 256) (v : Word)
  | calSwap (cal : CalId)
  | marginWrite (v : Word)
  | planLoad (r : RingId) (p : Plan)
  | planLoadComplete (h : InstId)
  | run (r : RingId)
  | stop (r : RingId)
  | hedgeForm (r : RingId)
  | hedgeReshape (r : RingId)
  | instanceReset (r : RingId)
  | abortResend (h : InstId)
  | segmentZeroed (h : InstId) (n : Fin 64)
  | resetSequenceEnd (h : InstId)
  | vfFlr (h : InstId)
  | pfFlr
  | dmaIn (r : RingId) (data : List Byte)
  | dmaOut (r : RingId)
  | drawEntropy (r : RingId)
  | traceRead (r : RingId)
  | sensorBind (r : RingId)
  | fence (r : RingId)
  | descNop (r : RingId)
  | transferDone (id : Nat)
  | doorbell (f : Fn) (r : RingId) (v : BitVec 16)
  | descriptorFetch (r : RingId) (d : BitVec 512)
  | hostCompletionTimeout (id : Nat)
  | pcieLinkDown (link : Fin 2)
  | hostLinkFailover
  | failoverForce
  | p1LinkLost
  | clusterFault (d : Die) (row : Fin 8) (pcol : Fin 9) (lost : List UeLoc)
  | takeoverCopyDone (d : Die) (row : Fin 8)
  | unitHang (c : Cl) (u : UnitKind)
  | flitEccError (c : Cl) (multi : Bool)
  | flitAtClosedPort (c : Cl)
  | dieLinkCrcFail (m : ModId) (dir : Fin 2) (h : InstId) (retryOk : Bool)
  | dieLinkLaneRepair (m : ModId) (lane : Fin 64) (errs : Nat)
  | dieLinkLoss (m : ModId)
  | dieLinkRetrainDone (m : ModId)
  | stitchWireFault (d : Die) (group : Fin 64)
  | segmentEntryWrite (h : InstId) (n : Fin 64) (w : Fin 4) (v : Word)
  | nop (c : Cl) (p : Sp) (f : FmtC)
  | add (c : Cl) (p : Sp) (f : FmtA)
  | sub (c : Cl) (p : Sp) (f : FmtA)
  | and (c : Cl) (p : Sp) (f : FmtA)
  | or (c : Cl) (p : Sp) (f : FmtA)
  | xor (c : Cl) (p : Sp) (f : FmtA)
  | shl (c : Cl) (p : Sp) (f : FmtA)
  | shr (c : Cl) (p : Sp) (f : FmtA)
  | sra (c : Cl) (p : Sp) (f : FmtA)
  | mul (c : Cl) (p : Sp) (f : FmtA)
  | min (c : Cl) (p : Sp) (f : FmtA)
  | max (c : Cl) (p : Sp) (f : FmtA)
  | addi (c : Cl) (p : Sp) (f : FmtB)
  | andi (c : Cl) (p : Sp) (f : FmtB)
  | ori (c : Cl) (p : Sp) (f : FmtB)
  | shli (c : Cl) (p : Sp) (f : FmtB)
  | shri (c : Cl) (p : Sp) (f : FmtB)
  | lui (c : Cl) (p : Sp) (f : FmtC)
  | cmp (c : Cl) (p : Sp) (f : FmtA)
  | cmpi (c : Cl) (p : Sp) (f : FmtB)
  | plog (c : Cl) (p : Sp) (f : FmtA)
  | sel (c : Cl) (p : Sp) (f : FmtA)
  | fadd (c : Cl) (p : Sp) (f : FmtA)
  | fsub (c : Cl) (p : Sp) (f : FmtA)
  | fmul (c : Cl) (p : Sp) (f : FmtA)
  | fma (c : Cl) (p : Sp) (f : FmtA)
  | fdiv (c : Cl) (p : Sp) (f : FmtA)
  | fsqrt (c : Cl) (p : Sp) (f : FmtA)
  | fcvt (c : Cl) (p : Sp) (f : FmtA)
  | ld (c : Cl) (p : Sp) (f : FmtB)
  | st (c : Cl) (p : Sp) (f : FmtB)
  | ldh (c : Cl) (p : Sp) (f : FmtB)
  | sth (c : Cl) (p : Sp) (f : FmtB)
  | ldc (c : Cl) (p : Sp) (f : FmtB)
  | stc (c : Cl) (p : Sp) (f : FmtB)
  | xfer (c : Cl) (p : Sp) (f : FmtA)
  | xferRemoteServe (c : Cl) (tag : Fin 64)
  | xferComplete (c : Cl) (tag : Fin 64) (bad : List Nat)
  | push (c : Cl) (p : Sp) (f : FmtA)
  | pop (c : Cl) (p : Sp) (f : FmtA)
  | peek (c : Cl) (p : Sp) (f : FmtA)
  | queueEntryArrival (c : Cl) (p : Sp) (x : Cx) (q : Fin 5)
  | queueCreditReturn (c : Cl) (p : Sp) (x : Cx) (q : Fin 5)
  | mec (c : Cl) (p : Sp) (f : FmtA)
  | suc (c : Cl) (p : Sp) (f : FmtA)
  | drc (c : Cl) (p : Sp) (f : FmtA)
  | rnd (c : Cl) (p : Sp) (f : FmtA)
  | loop (c : Cl) (p : Sp) (f : FmtC)
  | qset (c : Cl) (p : Sp) (f : FmtC)
  | endI (c : Cl) (p : Sp) (f : FmtC)
  | idle (c : Cl) (p : Sp) (f : FmtC)
  | idleWaitEnd (c : Cl) (p : Sp) (x : Cx)
  | srd (c : Cl) (p : Sp) (f : FmtA)
  | layingSlotSwitch (c : Cl) (p : Sp)
  | endMarkerReached (h : InstId)
  | meMatmul (c : Cl)
  | laccRead (c : Cl)
  | laccClear (c : Cl)
  | post (c : Cl)
  | meNop (c : Cl)
  | meCommandComplete (c : Cl)
  | sweep (c : Cl)
  | apply (c : Cl)
  | exportCmd (c : Cl)
  | exportArrival (c : Cl) (tag : Fin 64)
  | load (c : Cl)
  | rebuild (c : Cl)
  | read (c : Cl)
  | suSwap (c : Cl)
  | suNop (c : Cl)
  | suCommandComplete (c : Cl) (boundary : Bool)
  | checkpoint (h : InstId)
  | checkpointResult (h : InstId)
  | suaStagedWrite (h : InstId) (off : BitVec 12) (v : Word)
  | bestClr (h : InstId)
  | draw (c : Cl)
  | drawNop (c : Cl)
  | drawComplete (c : Cl)
  | classAFail (n : PortId) (run : List Bool) (window : List Bool)
  | classARetry (mask : BitVec 4)
  | classAStartupPass (n : PortId) (samples : List Bool)
  | ethFrameReceive (n : PortId) (f : EthFrame)
  | arpRequest (n : PortId)
  | neighbourSolicitation (n : PortId)
  | pfcReceive (n : PortId) (prios : BitVec 8)
  | ptpMessageReceive
  | ktPacketReceive (n : PortId)
  | ktAckSend (h : InstId) (ch : Fin 64)
  | ktAckReceive (n : PortId)
  | ktRetransmit (h : InstId) (ch : Fin 64) (psn : Word)
  | boundaryFrameReceive (n : PortId) (offsetNs : Nat)
  | ktAbortReceive (n : PortId)
  | abortAckReceive (n : PortId)
  | ethLinkDown (n : PortId) (subs : BitVec 4)
  | ethLinkUp (n : PortId) (subs : BitVec 4)
  | flowEntryWrite (n : PortId) (f : Fin 64) (w : Fin 12) (v : Word)
  | keyInstall (n : PortId) (v : Word)
  | channelEntryWrite (h : InstId) (ch : Fin 64) (w : Fin 8) (v : Word)
  | ptpCfgWrite (v : Word)
  | sensorPacketReceive (ch : Fin 16)
  | sensorFrameTimeout (ch : Fin 16) (offsetNs : Word)
  | heartbeat (src : PortId) (dst : PortId) (term : Word)
  | heartbeatMissed (src : PortId) (dst : PortId)
  | supForce
  | errorInject (addr : BitVec 28) (v : Word)
  | errorInjectFire (addr : BitVec 28)
  | avsVenvWrite (d : Fin 12) (v : Word)
  | gradeStepUp
  | thermalOverrideClear
  | moduleStart
  | sagWarn (mv : BitVec 16)
  | sagWarnClear (mv : BitVec 16)
  | saveTrigger (cause : Fin 8)
  | pwrShutdown
  | savePowerDown
  | saveComplete (durationUs : Word)
  | saveBankExhausted
  | leakDetected
  | shdnReq
  | coolantTrip
  | holdBankClassify (b : BankIn)
  | holdChargeRetry (b : BankIn)
  | holdBankClassChange (cls : BitVec 3) (c esr : BitVec 16)
  | holdBankOvercurrent
  | fieldLineChange (line : Fin 17) (st : BitVec 2)
  | fieldDriverRetry (line : Fin 17)
  | keepLoad (h : InstId)
  | deviceReset (k : ResetKind)
  | startupStageDone (i : StageIn)
  | fwCommit
  | fwActivate
  | flashRead
  | flashProgram
  | flashErase
  | flashOpDone
  | spdmRequest (q : SpdmReq) (via : Option (BitVec 7))
  | pldmRequest (q : PldmSensor) (addr : BitVec 7)
  | pgCtlFreeze (addr : BitVec 28) (on : Bool)
  | pgCtlClear (addr : BitVec 28)
  | pageLock (addr : BitVec 28) (on : Bool)
  | rcFieldRead (f : Fn) (addr : BitVec 28)
  | registerWrite (f : Fn) (addr : BitVec 28) (v : Word64) (size : Fin 9)
  | registerRead (f : Fn) (addr : BitVec 28) (size : Fin 9)
  | pcieLinkUp (link : Fin 2) (speed : BitVec 4) (width : BitVec 5)
  | vfEnable (h : InstId) (on : Bool)
  | perstDeassertion
  | ptpMessageTransmit (k : PtpTx)
  | pfcPauseExpiry (n : PortId) (prio : Fin 8)
  | linkEqualisation (d : Fin 12) (eth : Bool) (lane : Fin 256) (want : Int)
  deriving DecidableEq, Repr

end Sys2Proof
end

