-- ==== Sys2Proof/WellFormed.lean ====
section
/-! DEFINITION. WellFormed.lean: the commands that the block can be given. A command that breaks a check is one that no
rule of the spec lets arise: a predicate on an instruction that never carries one (R166), a register block that is not
aligned or a reserved queue selector (R183), a page address that is no word's, an access of another size than R463 knows. -/

namespace Sys2Proof

/-- PRED = 0 and PNEG = 0 (R166). -/
def noPred (p : Fin 8) (n : Bool) : Bool := p == 0 && !n

/-- An instance id, 1–64 (00_scope.md, Terms). -/
def isInst (h : InstId) : Bool := decide (1 ≤ h.val)

/-- The address of a register word in BAR0 (R461, R463). -/
def wordAddr (a : BitVec 28) : Bool := decide (a.toNat % 4 = 0)

/-- The sizes in bytes that the model's register accesses come in; any other splits into them. -/
def accessSize (n : Fin 9) : Bool := n.val == 1 || n.val == 2 || n.val == 4 || n.val == 8

/-- The command is well formed. -/
def wf (i : Instr) : Bool :=
  match i with
  | .tickBoundary i => i.temps.length == 20
  | .commitPoint h => isInst h
  | .patrolScrubStep _ lines _ => decide (lines ≤ 6400)
  | .pcMigrationStep _ g => decide (g ≤ 21457 * 128)
  | .planLoadComplete h => isInst h
  | .abortResend h => isInst h
  | .segmentZeroed h _ => isInst h
  | .resetSequenceEnd h => isInst h
  | .vfFlr h => isInst h
  | .dmaIn _ data => decide (data.length ≤ 2 ^ 30)
  | .segmentEntryWrite h _ _ _ => isInst h
  | .fcvt _ _ f => decide (f.fn.toNat ≤ 5)
  | .xfer _ _ f => noPred f.pred f.pneg
  | .push _ _ f => noPred f.pred f.pneg
  | .pop _ _ f => noPred f.pred f.pneg && decide (f.fn.toNat % 8 ≤ 4)
  | .peek _ _ f => noPred f.pred f.pneg && decide (f.fn.toNat % 8 ≤ 4)
  | .mec _ _ f => noPred f.pred f.pneg && decide (f.rs1.val % 4 = 0)
  | .suc _ _ f => noPred f.pred f.pneg && decide (f.rs1.val % 2 = 0)
  | .drc _ _ f => noPred f.pred f.pneg && decide (f.rs1.val % 2 = 0)
  | .rnd _ _ f => noPred f.pred f.pneg
  | .loop _ _ f => noPred f.pred f.pneg
  | .qset _ _ f => noPred f.pred f.pneg
  | .endI _ _ f => noPred f.pred f.pneg
  | .idle _ _ f => noPred f.pred f.pneg
  | .srd _ _ f => decide (f.fn.toNat % 8 ≤ 6)
  | .endMarkerReached h => isInst h
  | .checkpoint h => isInst h
  | .checkpointResult h => isInst h
  | .suaStagedWrite h _ _ => isInst h
  | .bestClr h => isInst h
  | .ktAckSend h _ => isInst h
  | .ktRetransmit h _ _ => isInst h
  | .channelEntryWrite h _ _ _ => isInst h
  | .errorInject addr _ => wordAddr addr
  | .errorInjectFire addr => wordAddr addr
  | .keepLoad h => isInst h
  | .pgCtlFreeze addr _ => wordAddr addr
  | .pgCtlClear addr => wordAddr addr
  | .pageLock addr _ => wordAddr addr
  | .rcFieldRead _ addr => wordAddr addr
  | .registerWrite _ _ _ size => accessSize size
  | .registerRead _ _ size => accessSize size
  | .vfEnable h _ => isInst h
  | .workStart | .coppiceStart | .commitStart | .mirrorCopyDone _ | .calendarSlotStart _ | .tckPeriodWrite _
  | .tckCfgWrite _ | .tckT0Write _ _ | .tckInofsWrite _ | .start _ | .step _ | .tickInEdge _ _ | .tickInEdgeMissed
  | .ppsInEdge _ _ _ | .trigInputEdge _ _ | .lockAcquired | .lockSourceLost | .lockSourceReturn _
  | .followerHoldoverLimit _ | .pcReadSwitch _ | .noiseTrimPass _ _ _ | .flashWearStep _ | .telemetrySnapshot _ _
  | .calTableWrite _ _ _ | .calSwap _ | .marginWrite _ | .planLoad _ _ | .run _ | .stop _ | .hedgeForm _
  | .hedgeReshape _ | .instanceReset _ | .pfFlr | .dmaOut _ | .drawEntropy _ | .traceRead _ | .sensorBind _
  | .fence _ | .descNop _ | .transferDone _ | .doorbell _ _ _ | .descriptorFetch _ _ | .hostCompletionTimeout _
  | .pcieLinkDown _ | .hostLinkFailover | .failoverForce | .p1LinkLost | .clusterFault _ _ _ _
  | .takeoverCopyDone _ _ | .unitHang _ _ | .flitEccError _ _ | .flitAtClosedPort _ | .dieLinkCrcFail _ _ _ _
  | .dieLinkLaneRepair _ _ _ | .dieLinkLoss _ | .dieLinkRetrainDone _ | .stitchWireFault _ _ | .nop _ _ _
  | .add _ _ _ | .sub _ _ _ | .and _ _ _ | .or _ _ _ | .xor _ _ _ | .shl _ _ _ | .shr _ _ _ | .sra _ _ _
  | .mul _ _ _ | .min _ _ _ | .max _ _ _ | .addi _ _ _ | .andi _ _ _ | .ori _ _ _ | .shli _ _ _ | .shri _ _ _
  | .lui _ _ _ | .cmp _ _ _ | .cmpi _ _ _ | .plog _ _ _ | .sel _ _ _ | .fadd _ _ _ | .fsub _ _ _ | .fmul _ _ _
  | .fma _ _ _ | .fdiv _ _ _ | .fsqrt _ _ _ | .ld _ _ _ | .st _ _ _ | .ldh _ _ _ | .sth _ _ _ | .ldc _ _ _
  | .stc _ _ _ | .xferRemoteServe _ _ | .xferComplete _ _ _ | .queueEntryArrival _ _ _ _
  | .queueCreditReturn _ _ _ _ | .idleWaitEnd _ _ _ | .layingSlotSwitch _ _ | .meMatmul _ | .laccRead _
  | .laccClear _ | .post _ | .meNop _ | .meCommandComplete _ | .sweep _ | .apply _ | .exportCmd _
  | .exportArrival _ _ | .load _ | .rebuild _ | .read _ | .suSwap _ | .suNop _ | .suCommandComplete _ _
  | .draw _ | .drawNop _ | .drawComplete _ | .classAFail _ _ _ | .classARetry _ | .classAStartupPass _ _
  | .ethFrameReceive _ _ | .arpRequest _ | .neighbourSolicitation _ | .pfcReceive _ _ | .ptpMessageReceive
  | .ktPacketReceive _ | .ktAckReceive _ | .boundaryFrameReceive _ _ | .ktAbortReceive _ | .abortAckReceive _
  | .ethLinkDown _ _ | .ethLinkUp _ _ | .flowEntryWrite _ _ _ _ | .keyInstall _ _ | .ptpCfgWrite _
  | .sensorPacketReceive _ | .sensorFrameTimeout _ _ | .heartbeat _ _ _ | .heartbeatMissed _ _ | .supForce
  | .avsVenvWrite _ _ | .gradeStepUp | .thermalOverrideClear | .moduleStart | .sagWarn _ | .sagWarnClear _
  | .saveTrigger _ | .pwrShutdown | .savePowerDown | .saveComplete _ | .saveBankExhausted | .leakDetected
  | .shdnReq | .coolantTrip | .holdBankClassify _ | .holdChargeRetry _ | .holdBankClassChange _ _ _
  | .holdBankOvercurrent | .fieldLineChange _ _ | .fieldDriverRetry _ | .deviceReset _ | .startupStageDone _
  | .fwCommit | .fwActivate | .flashRead | .flashProgram | .flashErase | .flashOpDone | .spdmRequest _ _
  | .pldmRequest _ _ | .pcieLinkUp _ _ _ | .perstDeassertion | .ptpMessageTransmit _ | .pfcPauseExpiry _ _
  | .linkEqualisation _ _ _ _ => true

end Sys2Proof
end

