-- ==== Sys2Proof/Decode.lean ====
section
/-! DEFINITION. Decode.lean: the command a word of spec/opcode_table.json spells. The device is a block, and the table
gives no row any bits: every row's "fields" is empty. No word spells a command. -/

namespace Sys2Proof

/-- The table gives no bits to any row, so no word of any length spells a command. -/
def decodeTableWord (_nbits _w : Nat) : Option Instr := none

end Sys2Proof
end

