-- ==== Sys2Proof/Config.lean ====
section
/-! DEFINITION. Config.lean: the values the spec leaves open. Each is an opaque constant, so nothing can be proved of its
value and every statement holds whatever it is (notes/assumptions/6.md). `n` is State.fresh, a counter that each use
advances. -/

namespace Sys2Proof.Config

/-- A 32-bit value that the device produces and no rule fixes: nanosecond offsets, random words, seeds. -/
opaque freeWord : Nat → Word

/-- A choice that no rule fixes, as a natural number. -/
opaque freeNat : Nat → Nat

/-- The 16-bit value a block noise source delivers in SU cycle `t` of a cluster (R235: unbiased noise, not a rule's value). -/
opaque blockNoise (cluster block t : Nat) : BitVec 16

/-- How many units in the last place an elementary function of the ME, the SU or the draw unit lies from the exact result
(within the bound the spec states), for an operand: -2 to 2 after clamping. -/
opaque ulpError (fn : Nat) (operand : Nat) : Int

/-- The value that an operation returns where the spec states none for these operands. -/
opaque unstated (op : Nat) (a b : Nat) : Word

/-- What a 64 KiB flash block holds: 1 firmware slot A, 2 slot B, 3 a record area, else neither. The spec does not place them. -/
opaque flashRegion (block : Nat) : Nat

/-- Whether the matrix engine uses a cluster-store bank in a cycle of a command (R142): a function of the command's words, of the
cycles since it began and of the bank, which no rule states. -/
opaque meBank (w0 w1 w2 w3 cycle bank : Nat) : Bool

/-- Byte `i` of the keystream, and the tag, of AES-256-GCM (R324; NIST SP 800-38D) under a key and an IV; the tag is over the
additional authenticated data and the ciphertext, each as a number and a length. -/
opaque gcmByte (key iv i : Nat) : Byte
opaque gcmTag (key iv aad aadLen text textLen : Nat) : BitVec 128

/-- The save key fused into P0 and P1 (R417). -/
opaque saveKey : Nat

/-- SHA-384 (R433, R446; FIPS 180-4) of bytes, as a number and a length. -/
opaque sha384 (text textLen : Nat) : BitVec 384

/-- This module's id is the lower one on a flow of a port (R324): the spec gives module ids no place in the device. -/
opaque lowerModule (port flow : Nat) : Bool

end Sys2Proof.Config
end

