-- ==== Sys2Proof/Machine/State.lean ====
section
/-! DEFINITION. Machine/State.lean: everything the spec gives the Zathes-512 module to hold, as plain data, with the value
of each field right after reset as its default. A docstring names the rule and the reset value; "reset 0 [4]" is a value
the spec does not state, named in notes/assumptions/4.md, and "model" is bookkeeping of the model's own (entry 6). -/

namespace Sys2Proof.Machine

/-- A finite map in canonical form: keys strictly rising, no entry equal to the map's default. -/
abbrev FMap (α : Type) := List (Nat × α)

/-- Bytes by address in canonical form; an unlisted byte reads 0 (R95, R431, entry 5). -/
abbrev Bytes := List Host.Cell

/-- The four phases of R28, numbered as TCK_PHASE.PHASE numbers them. -/
inductive Phase where
  | openP | work | coppice | commit
  deriving DecidableEq, Repr, Inhabited

/-- Instance states, in HDG_STATE's order (04_instances.md, Table — Instance states). -/
inductive IState where
  | empty | formed | loaded | running | held | topiary | resetting
  deriving DecidableEq, Repr, Inhabited

/-- The severities of R12. -/
inductive Sev where
  | note | absorb | replay | hold | safe
  deriving DecidableEq, Repr, Inhabited

/-- The common header of a page that is present (R449–R460): everything but its fixed PG_ID and PG_CAP. -/
structure PgHdr where
  /-- PG_ERR (R454), RW1C; reset 0 -/
  err : Word := 0
  /-- PG_ERRMSK (R455); reset 0 -/
  errMsk : Word := 0
  /-- PG_CTL.FREEZE (R452); reset 0 -/
  freeze : Bool := false
  /-- a CLEAR that waits for the boundary (R452); reset 0 -/
  clearPend : Bool := false
  /-- PG_ERRINJ.CODE (R456); reset 0 -/
  injCode : BitVec 16 := 0
  /-- PG_ERRINJ.TARGET (R456); reset 0 -/
  injTarget : BitVec 8 := 0
  /-- PG_ERRINJ.GO, an injection armed (R456); reset 0 -/
  injGo : Bool := false
  /-- PG_OWN.LOCK (R457); reset 0 -/
  lock : Bool := false
  /-- PG_TICK (R449); reset 0 -/
  tick : Word := 0
  /-- PG_SEQ (R458); reset 0 -/
  seq : Word := 0
  /-- PG_CNT0 (R460); reset 0 -/
  cnt0 : Word := 0
  /-- PG_CNT1 (R460); reset 0 -/
  cnt1 : Word := 0
  /-- PG_CNT2 (R460); reset 0 -/
  cnt2 : Word := 0
  /-- PG_CNT3 (R460); reset 0 -/
  cnt3 : Word := 0
  /-- PG_CNT4 (R460); reset 0 -/
  cnt4 : Word := 0
  /-- PG_CNT5 (R460); reset 0 -/
  cnt5 : Word := 0
  deriving DecidableEq, Repr, Inhabited

/-- The tick unit (02_tick.md; TCK page). -/
structure Tck where
  /-- TCK_PERIOD.PERIOD_US in effect (R27, R30); reset 1000 -/
  period : Nat := 1000
  /-- a period written and not yet decided (R30, R491); reset none -/
  periodStaged : Option Nat := none
  /-- TCK_CFG.SRC in effect (R35); reset 0 (FREE) -/
  src : BitVec 2 := 0
  /-- TCK_CFG.SLEW_NS in effect (R39); reset 250 -/
  slew : Nat := 250
  /-- a TCK_CFG word written and not yet decided (R43, R491); reset none -/
  cfgStaged : Option Word := none
  /-- TCK_T0 in effect (R35); reset 0 -/
  t0 : Word64 := 0
  /-- a TCK_T0 written and not yet applied (R43, R491); reset none -/
  t0Staged : Option Word64 := none
  /-- TCK_INOFS in effect, signed (R35); reset 0 -/
  inofs : Word := 0
  /-- a TCK_INOFS written and not yet applied (R43, R491); reset none -/
  inofsStaged : Option Word := none
  /-- TCK_STS.RUNNING; reset 0 -/
  running : Bool := false
  /-- TCK_STS.LOCKED (R38); reset 0 -/
  locked : Bool := false
  /-- TCK_STS.HOLDOVER (R42); reset 0 -/
  holdover : Bool := false
  /-- TCK_STS.SLEWING (R39); reset 0 -/
  slewing : Bool := false
  /-- TCK_STS.MASTER_P1 (R389); reset 0 -/
  masterP1 : Bool := false
  /-- TCK_STS.FOLLOWER_HOLD (R44); reset 0 -/
  followerHold : BitVec 8 := 0
  /-- ticks each follower has run without the master (R44); reset 0 -/
  followerTicks : FMap Nat := []
  /-- TCK_DEVTICK, the device tick counter (R46); reset 0 -/
  devTick : Word64 := 0
  /-- the value the next boundary gives the device tick counter after START or STEP (R37, R40, R445); reset none -/
  nextIndex : Option Word64 := none
  /-- a STEP that waits for its boundary (R40); reset 0 -/
  stepPending : Bool := false
  /-- TCK_PHERR, signed ns (R38): with TICK_IN as the source, the boundary's place less that which the last accepted edge
  marks (R35), brought forward by the correction of each COPPICE; reset 0 -/
  phErr : Int := 0
  /-- consecutive ticks with the phase error within ±50 ns (R38); reset 0 -/
  goodTicks : Nat := 0
  /-- consecutive predicted boundaries without an accepted TICK_IN edge (R41); reset 0 -/
  missed : Nat := 0
  /-- the lock source is lost (R42); reset 0 -/
  srcLost : Bool := false
  /-- TCK_OUTCFG.EN (R45); reset 1 -/
  outEn : Bool := true
  /-- TCK_OUTCFG.DIV (R45); reset 0 -/
  outDiv : BitVec 16 := 0
  /-- TCK_PHASE.PHASE (R28); reset 0 -/
  phase : Phase := .openP
  /-- the change, in ns, that the COPPICE in progress takes to correct phase (R39); reset 0 -/
  coppiceAdj : Int := 0
  /-- stacks whose patrol is unfinished, by bit; TCK_BGSTS.SCRUB shows that there is one (R56, R280); reset 0 -/
  bgScrub : BitVec 8 := 0
  /-- TCK_BGSTS.SU_TRIM; reset 0 -/
  bgTrim : Bool := false
  /-- the saved position of the trim job, cluster × 64 + block of the next source (R56, R236); reset 0 -/
  trimPos : Nat := 0
  /-- TCK_BGSTS.FLASH; reset 0 -/
  bgFlash : Bool := false
  /-- TCK_BGSTS.TELEMETRY; reset 0 -/
  bgTel : Bool := false
  /-- TCK_PPSTS (R35); reset 0 -/
  pps : Word64 := 0
  deriving DecidableEq, Repr, Inhabited

/-- What waits for slots of a calendar (R74). `stop` is the offset in the transfer or delivery at which the waiting bytes end. A
`relay` is a sensor packet on its way to the port die of its channel (R329). -/
inductive ItemKind where
  | dma (id stop : Nat)
  | entropy (id : Nat)
  | hbmOp (c : Cl) (tag : Nat)
  | deliver (id stop : Nat)
  | relay (id : Nat)
  | readCpl (f addr : Nat) (vs : List Word)
  deriving DecidableEq, Repr

/-- A transfer that waits for slots of a calendar (R74): its owner, what it moves, the bytes left, and whether it keeps to the owner's
own slots, as all do but the transfers that R80 lists. -/
structure CalItem where
  owner : Nat
  kind : ItemKind
  left : Nat
  planned : Bool
  deriving DecidableEq, Repr

/-- One calendar (R71–R80; CAL resource page). Owner codes: 0 management, 1–64 an instance, 0xFF unowned. -/
structure Cal where
  /-- the active table; default 0xFF unowned (R71, R490); reset 0xFF in every slot -/
  table : FMap Nat := []
  /-- the shadow table (R76); reset 0xFF in every slot -/
  shadow : FMap Nat := []
  /-- CAL_CTL.PENDING, a SWAP that waits (R76); reset 0 -/
  pending : Bool := false
  /-- SLOTIDX, the slot in progress; reset 0 -/
  slotIdx : Nat := 0
  /-- slots begun since the last boundary, so the ordinal in the tick of the next one (R73); reset 0 -/
  begun : Nat := 0
  /-- the member that last borrowed on this calendar in this tick, 0 at a boundary (R79); reset 0 -/
  lastBorrow : Nat := 0
  /-- of the slot in progress: flit positions used on a die link (R129, R130); on an egress calendar by bit (R302, R303, R319) 0–3 the
  sub-ports taken, 4 a planned frame was ready at its start, 5 an ACK has left; reset 0 -/
  used : Nat := 0
  /-- transfers that are ready and wait for slots (R74); reset empty -/
  queue : List CalItem := []
  deriving DecidableEq, Repr, Inhabited

/-- The calendar control page (R83–R86). -/
structure CalCtl where
  /-- CAL_GCTL.MARGIN in effect (R83); reset 16 -/
  margin : Nat := 16
  /-- a margin written and not yet decided (R84, R491); reset none -/
  marginStaged : Option Nat := none
  /-- CAL_PWRCAP (R85); reset 1050 -/
  pwrCap : Nat := 1050
  /-- CAL_PWRBASE (R85); reset 160 -/
  pwrBase : Nat := 160
  /-- CAL_ADMIT.REASON (R86); reset 0 -/
  reason : Nat := 0
  /-- CAL_ADMIT.CLASS (R86); reset 0 -/
  cls : Nat := 0
  /-- CAL_ADMIT.UNIT (R86); reset 0 -/
  unit : Nat := 0
  deriving DecidableEq, Repr, Inhabited

/-- A queue of a sprig context: one of N, E, S, W, U (R170–R173). An entry carries the WORK cycle from which it is poppable. -/
structure Queue where
  /-- its depth, fixed by the plan (R172); reset 0 -/
  depth : Nat := 0
  /-- entries pushed and not yet arrived (R170); reset empty -/
  fly : List (Word × Nat) := []
  /-- entries that can be popped, head first (R171); reset empty -/
  q : List (Word × Nat) := []
  /-- WORK cycles from which the credits on their way back to the sender are good (R171); reset empty -/
  owed : List Nat := []
  /-- entries enqueued this tick (CNT ENQ); reset 0 -/
  enq : Nat := 0
  /-- peak occupancy this tick (CNT PEAK); reset 0 -/
  peak : Nat := 0
  deriving DecidableEq, Repr, Inhabited

/-- A loop level of a context (R169). -/
structure LoopLevel where
  first : Nat
  last : Nat
  left : Nat
  deriving DecidableEq, Repr

/-- One context of a sprig (R159–R162). -/
structure Ctx where
  /-- g0–g31, g0 reading 0 (R159); reset 0 (R161) -/
  regs : FMap Word := []
  /-- the WORK cycle from which a register can be read (R163); reset 0 -/
  rdy : FMap Nat := []
  /-- p0–p7, p0 reading 1 (R159); reset 0 (R161) -/
  preds : BitVec 8 := 0
  /-- the program counter (R162); reset 0 (R161) -/
  pc : Nat := 0
  /-- loop levels 0 and 1 (R169); reset none (R161) -/
  loop0 : Option LoopLevel := none
  /-- loop level 1 (R169); reset none -/
  loop1 : Option LoopLevel := none
  /-- it has executed END (R181); reset 0 -/
  ended : Bool := false
  /-- it waits in IDLE for this many active cycles (R179); reset 0 -/
  idleLeft : Nat := 0
  /-- inbound queue N; reset empty (R161) -/
  qN : Queue := {}
  /-- inbound queue E; reset empty -/
  qE : Queue := {}
  /-- inbound queue S; reset empty -/
  qS : Queue := {}
  /-- inbound queue W; reset empty -/
  qW : Queue := {}
  /-- unit queue U; reset empty -/
  qU : Queue := {}
  deriving DecidableEq, Repr, Inhabited

/-- The per-sprig counters of the SPG page, in cycles or bits (SPG, at 0x100 + s × 0x20); reset 0. -/
structure SprigCnt where
  busy : Nat := 0
  dep : Nat := 0
  q : Nat := 0
  port : Nat := 0
  switch : Nat := 0
  idle : Nat := 0
  rnd : Nat := 0
  deriving DecidableEq, Repr, Inhabited

/-- One sprig (R159–R182). -/
structure Sprig where
  /-- instruction memory, context × 256 + address (R160); reset 0 (R431) -/
  imem : FMap Word := []
  /-- the contexts that hold a program, by bit (R181); reset 0 -/
  prog : BitVec 4 := 0
  /-- the four contexts; reset as Ctx -/
  c0 : Ctx := {}
  /-- context 1 -/
  c1 : Ctx := {}
  /-- context 2 -/
  c2 : Ctx := {}
  /-- context 3 -/
  c3 : Ctx := {}
  /-- the active context (R161, R178); reset 0 -/
  active : Fin 4 := 0
  /-- the 2 KiB data memory (R160); reset 0 -/
  dmem : Bytes := []
  /-- the next WORK cycle in which it can issue (R162, entry 1); reset 0 -/
  cycle : Nat := 0
  /-- the WORK cycle from which the divide unit is free (R163); reset 0 -/
  divFree : Nat := 0
  /-- the class B lane generator (R244); reset 0 [4] -/
  lfsr : Word64 := 0
  /-- this tick's counters (R372); reset 0 -/
  cnt : SprigCnt := {}
  /-- the counters published at the last COPPICE (R459); reset 0 -/
  pub : SprigCnt := {}
  deriving DecidableEq, Repr, Inhabited

/-- A command in a unit's queue: its words, the context that issued it and the WORK cycle of issue (R174). -/
structure UCmd where
  w0 : Word
  w1 : Word
  w2 : Word
  w3 : Word
  sprig : Sp
  ctx : Cx
  at_ : Nat
  deriving DecidableEq, Repr

/-- A command that has run and waits to complete: what it returns to U, and the WORK cycle of its completion. -/
structure URun where
  cmd : UCmd
  ret : List Word
  done : Nat
  deriving DecidableEq, Repr

/-- A command in one of the SU array's engines (R196–R199, R205, R206): its status and value, the tag it holds, the WORK cycles of its
dispatch and its completion, the SU cycles (for an EXPORT, the blocks) of it that have passed, the temperatures' reciprocals of the sweep in progress by block, the accepts of
that sweep by block, and the RECEIVED bits that an APPLY latched. -/
structure SuRun where
  cmd : UCmd
  status : Nat
  value : Nat
  tag : Nat
  start : Nat
  done : Nat
  pos : Nat
  beta : FMap Word
  acc : FMap Nat
  latched : FMap Bool
  deriving DecidableEq, Repr

/-- A long accumulator: k of k × 2^E0 and its sticky flags (R150). -/
structure LAcc where
  k : Int := 0
  loss : Bool := false
  ovf : Bool := false
  nonfin : Bool := false
  deriving DecidableEq, Repr, Inhabited

/-- A matrix engine (R138–R158; MEX page). -/
structure Me where
  /-- commands not yet dispatched, at most 8 (R174); reset empty -/
  queue : List UCmd := []
  /-- the command that runs (R140); reset none -/
  run : Option URun := none
  /-- the WORK cycle after the last group of the last command (R140); reset 0 -/
  groupEnd : Nat := 0
  /-- the WORK cycle of the last completion (R140); reset 0 -/
  lastDone : Nat := 0
  /-- the 16 long accumulators by lane (R150); reset 0 -/
  acc : FMap LAcc := []
  /-- E0 of the accumulators held (R152); reset 0 -/
  accE0 : Int := 0
  /-- MEX LACC_KEPT (R152); reset 0 -/
  kept : Bool := false
  /-- MEX FLAGS (R158); reset 0 -/
  flags : BitVec 9 := 0
  /-- FLAGS gathered in this tick; reset 0 -/
  tickLive : BitVec 9 := 0
  /-- MEX TICKFLAGS; reset 0 -/
  tickFlags : BitVec 9 := 0
  /-- commands taken in this tick; reset 0 -/
  seq : Nat := 0
  /-- index of this tick's first ILLEGAL command; reset none -/
  ill : Option Nat := none
  /-- MEX ILLSEQ as published; reset 0 -/
  illSeq : Nat := 0
  /-- MEX LASTE0; reset 0x3D0 -/
  lastE0 : BitVec 10 := 0x3D0
  /-- the WORK cycle in which the last command dispatched began (R142); reset 0 -/
  began : Nat := 0
  /-- the class B generators of the lanes (R244); reset 0 [4] -/
  lfsr : FMap Word64 := []
  /-- WORK cycles in which its port took a command (R174); reset empty -/
  taken : List Nat := []
  /-- this tick's busy cycles, stall cycles, commands, flagged commands, corrected errors and class B bits; reset 0 -/
  busy : Nat := 0
  stall : Nat := 0
  cmds : Nat := 0
  flagged : Nat := 0
  corrected : Nat := 0
  bits : Nat := 0
  deriving DecidableEq, Repr, Inhabited

/-- A block of an SU array in one sheet (R187, R193, R207). -/
structure SuBlock where
  /-- the states, bit u for unit u (R187); reset 0 -/
  states : Word64 := 0
  /-- the clamps (R198); reset 0 -/
  clamps : Word64 := 0
  /-- the update order; empty is the linear order (R198); reset empty -/
  order : List Nat := []
  /-- the biases h_i in coefficient units (R189); reset 0 -/
  bias : FMap Int := []
  /-- the local fields f_i (R189); reset 0 -/
  fields : FMap Int := []
  deriving DecidableEq, Repr, Inhabited

/-- The per-block annealing state of R209: bramble offset and window counts (R221). -/
structure BlkAnn where
  /-- the bramble offset, FP32; reset 0 -/
  bramble : Word := 0
  /-- acc_win; reset 0 -/
  acc : Nat := 0
  /-- sw_win; reset 0 -/
  sw : Nat := 0
  deriving DecidableEq, Repr, Inhabited

/-- A sparse entry (R194). -/
structure Sparse where
  ghost : Nat := 0
  target : Nat := 0
  j : Int := 0
  deriving DecidableEq, Repr, Inhabited

/-- A block noise source (R235–R238). -/
structure Noise where
  /-- the signed trim code (R236); reset 0 [4] -/
  trim : Int := 0
  /-- the source has failed (R237); reset 0 -/
  failed : Bool := false
  /-- the last value delivered to an update (R237); reset 0 -/
  last : BitVec 16 := 0
  /-- how often in a row it was delivered (R237); reset 0 -/
  reps : Nat := 0
  deriving DecidableEq, Repr, Inhabited

/-- An SU array (08_stochastic_units.md; SUA page). -/
structure Su where
  /-- SUA_CFG.MODE (R190); reset 0 -/
  mode : BitVec 2 := 0
  /-- SUA_CFG.CARRY (R209); reset 0 -/
  carry : Bool := false
  /-- SUA_CFG.SHEETS (R207); reset 0 -/
  sheets : BitVec 2 := 0
  /-- SUA_ENC (R187); reset 0 -/
  enc : Word64 := 0
  /-- SUA_ORDER (R198); reset 0 -/
  ordered : Word64 := 0
  /-- SUA_NOISESUB (R238); reset 0 -/
  noiseSub : Word64 := 0
  /-- SUA_SHEET0–3 (R207); reset 0 -/
  sheetVa : FMap Word64 := []
  /-- RESIDENT, the resident sheet (R208); reset 0 -/
  resident : Nat := 0
  /-- SUA FLAGS: LOSS, ILLEGAL, NOISESUB; reset 0 -/
  flags : BitVec 3 := 0
  /-- SUA_SPCNT; reset 0 -/
  spcnt : Nat := 0
  /-- XEXP, X_b by block (R192); reset 0 -/
  xexp : FMap Int := []
  /-- the dense coupling store, a × 4096 + i × 64 + k (R193); reset 0 -/
  dense : FMap Int := []
  /-- the sparse table (R194); reset 0 -/
  sparse : FMap Sparse := []
  /-- the blocks of the four sheets, sheet × 64 + block (R193, R207); reset as SuBlock -/
  blocks : FMap SuBlock := []
  /-- the ghost RECEIVED bits (08, Terms); reset 0 -/
  received : FMap Bool := []
  /-- the ghost encoding bits: 1 for 0/1 encoding (08, Terms); reset 0 -/
  ghostEnc : FMap Bool := []
  /-- the APPLIED bits, sheet × 16384 + slot; reset 0 -/
  applied : FMap Bool := []
  /-- the per-block annealing state (R209); reset as BlkAnn -/
  ann : FMap BlkAnn := []
  /-- the noise sources of the blocks; reset as Noise -/
  noise : FMap Noise := []
  /-- a new best has come in the middle of a sweep: the brambles are reset at its end (R223); reset 0 -/
  brReset : Bool := false
  /-- commands not yet dispatched, at most 8 (R196); reset empty -/
  queue : List UCmd := []
  /-- the sweep engine's command (R196); reset none -/
  sweepRun : Option SuRun := none
  /-- the boundary engine's command (R196); reset none -/
  bndRun : Option SuRun := none
  /-- WORK cycles in which its port took a command (R174); reset empty -/
  taken : List Nat := []
  /-- WORK cycles from which the sweep and the boundary engine are free (R196); reset 0 -/
  sweepFree : Nat := 0
  bndFree : Nat := 0
  /-- the WORK cycle of the last dispatch: commands dispatch in order (R196); reset 0 -/
  lastDisp : Nat := 0
  /-- this tick's sweep-engine busy, boundary-engine busy, stalls, site updates, accepted flips, corrected errors; reset 0 -/
  busyS : Nat := 0
  busyB : Nat := 0
  stall : Nat := 0
  updates : Nat := 0
  flips : Nat := 0
  corrected : Nat := 0
  /-- sweeps completed this tick (R226); reset 0 -/
  sweeps : Nat := 0
  /-- accepted flips since the previous checkpoint (R226); reset 0 -/
  ckptFlips : Nat := 0
  /-- of these, the flips of committed ticks, to which a discarded tick returns; reset 0 -/
  ckptBase : Nat := 0
  deriving DecidableEq, Repr, Inhabited

/-- A draw unit (R249–R255; DRW page). -/
structure Drw where
  /-- commands not yet dispatched, at most 8 (R249); reset empty -/
  queue : List UCmd := []
  /-- the command that runs; reset none -/
  run : Option URun := none
  /-- DRW_CFG.ACLASS (R255); reset 0 -/
  aclass : Bool := false
  /-- the class A buffer (R255); reset empty -/
  abuf : List Word := []
  /-- DRW FLAGS; reset 0 -/
  flags : BitVec 6 := 0
  /-- its class B generator (R244); reset 0 [4] -/
  lfsr : Word64 := 0
  /-- WORK cycles in which its port took a command (R174); reset empty -/
  taken : List Nat := []
  /-- the cycle from which the unit is free; reset 0 -/
  free : Nat := 0
  /-- this tick's busy, stall, commands, draws, class B bits and class A draws; reset 0 -/
  busy : Nat := 0
  stall : Nat := 0
  cmds : Nat := 0
  draws : Nat := 0
  bits : Nat := 0
  adraws : Nat := 0
  deriving DecidableEq, Repr, Inhabited

/-- The SU carried image (R209). -/
structure SuImage where
  states : FMap Word64 := []
  clamps : FMap Word64 := []
  applied : FMap Bool := []
  received : FMap Bool := []
  ann : FMap BlkAnn := []
  deriving DecidableEq, Repr, Inhabited

/-- A cluster's carried state: its declaration, its committed copy and its mirror (R270–R275). -/
structure Carried where
  /-- the carried lines of the cluster store (R270); reset empty -/
  lines : List Nat := []
  /-- the carried ranges of sprig data memory: sprig, offset, length (R270); reset empty -/
  dmem : List (Nat × Nat × Nat) := []
  /-- device physical address of the mirror area, none without carried state (R273); reset none -/
  mirror : Option Nat := none
  /-- the committed copy of the carried area (R271); reset 0 -/
  store : Bytes := []
  /-- the committed copy of the sprig part, sprig × 2048 + address (R271); reset 0 -/
  sprig : Bytes := []
  /-- the committed copy of the SU part (R271); reset 0 -/
  su : SuImage := {}
  /-- the mirror copy of the last committed tick is complete (R275); reset 1 [4] -/
  mirrorDone : Bool := true
  /-- the mirror area must be copied whole in the next mirror window (R285); reset 0 -/
  recopy : Bool := false
  /-- carried-area lines written in the tick, which the mirror copy takes (R273); reset empty -/
  dirty : List Nat := []
  deriving DecidableEq, Repr, Inhabited

/-- Where an operation of R136 goes: a transfer of R176, the message of an EXPORT (R205), or the sheet image that a SWAP reads from
slices or from HBM (R208). -/
inductive OpKind where
  | slice | hbm | cluster (dst : Cl) | exportTo (dst : Cl) | refused | sheet (hbm : Bool)
  deriving DecidableEq, Repr

/-- An operation in flight: the tag it holds and what it does (R136, R176, R205, R493). -/
structure Op where
  tag : Nat
  kind : OpKind
  w0 : Word
  w1 : Word
  w2 : Word
  w3 : Word
  notify : Bool
  sprig : Sp
  ctx : Cx
  /-- the WORK cycle of issue -/
  at_ : Nat
  status : Nat
  /-- the far cluster has answered a transfer between clusters (R493) -/
  served : Bool
  /-- beats at slice ports, bytes of HBM or flits of the present message that are still to move -/
  left : Nat
  /-- the WORK cycle of the latest move, so that of completion once nothing is left -/
  done : Nat
  data : List (Nat × List Byte)
  bits : List (Nat × Bool × Bool)
  /-- beats that read a poisoned line (R281) -/
  bad : List Nat
  deriving DecidableEq, Repr

/-- A write to a cluster store on its way (R175, R287, R288, R493): a reader before `lo` sees the old contents, one from `hi`
on the new ones, and in between either. -/
structure Landing where
  lo : Nat
  hi : Nat
  addr : Nat
  bytes : List Byte
  deriving DecidableEq, Repr

/-- A flit (R121): the operation it belongs to, whether it answers it, its index in its message, where it goes, and the WORK
cycle from which it is ready where it stands. -/
structure Flit where
  c : Cl
  tag : Nat
  back : Bool
  idx : Nat
  dst : Cl
  vc : Fin 4
  at_ : Nat
  deriving DecidableEq, Repr

/-- One 64 B access that waits at a slice port (R126, R288): its cluster with its hedge-local id, the operation and its beat, the
line, the window line that a write makes pending, and the WORK cycle in which it reaches the port. -/
structure Access where
  lid : Nat
  c : Cl
  tag : Nat
  beat : Nat
  dpa : Nat
  key : Option Nat
  read : Bool
  at_ : Nat
  deriving DecidableEq, Repr

/-- A flit at a die-link adapter (R129): the router and output it came from, the router and input it goes to. -/
structure Waiting where
  f : Flit
  src : Nat
  out : Nat
  far : Nat
  inp : Nat
  deriving DecidableEq, Repr

/-- The mesh and the slice ports of one hedge in the tick in progress (R121–R123, R126, R129); reset empty. Inputs are numbered
in the order of R122: 0 local, 1 west, 2 north, 3 east, 4 south; outputs as RSTALL numbers them: 0 local, 1 N, 2 E, 3 S, 4 W. -/
structure Net where
  /-- the next WORK cycle to run -/
  now : Nat := 0
  /-- flits that units still inject, cluster × 2 + unit: 0 transfers, 1 the SU array -/
  inj : FMap (List Flit) := []
  /-- input buffers, (router × 5 + input) × 4 + VC -/
  bufs : FMap (List Flit) := []
  /-- the input from which an output searches, (router × 5 + output) × 4 + VC -/
  pos : FMap Nat := []
  /-- credits in use, numbered as pos -/
  used : FMap Nat := []
  /-- credits on their way back: the WORK cycle from which each is good, and its number in used -/
  back : List (Nat × Nat) := []
  /-- flits at the adapters, by calendar, in the order of their arrival -/
  adapters : FMap (List Waiting) := []
  /-- the WORK cycle up to which a slot wait is counted, numbered as pos -/
  counted : FMap Nat := []
  /-- the WORK cycle from which a router takes another flit from its adapter -/
  entry : FMap Nat := []
  /-- accesses that wait at slice ports, in the order of issue -/
  acc : List Access := []
  /-- the hedge-local id from which a slice port searches, by slice -/
  rot : FMap Nat := []
  deriving DecidableEq, Repr, Inhabited

/-- The record of the last conformance comparison (R374; CNT page); reset 0. -/
structure Cnt where
  result : Nat := 0
  grade : Nat := 0
  firstType : Nat := 0
  firstOffset : Nat := 0
  expected : Word := 0
  actual : Word := 0
  divTicks : Word := 0
  /-- router output stalls of this tick, out × 4 + vc (R123) -/
  rstall : FMap Nat := []
  /-- the router output stalls published -/
  rstallPub : FMap Nat := []
  /-- ENQ and PEAK published, (sprig × 4 + ctx) × 5 + queue -/
  enqPub : FMap Nat := []
  peakPub : FMap Nat := []
  deriving DecidableEq, Repr, Inhabited

/-- A cluster (05_fabric.md; the six cluster pages), by logical cluster id. -/
structure Cluster where
  /-- CLU AVAIL (R15); reset 1 -/
  avail : Bool := true
  /-- CLU OWNER, 0 when free (R95); reset 0 -/
  owner : Nat := 0
  /-- CLU DORMANT (R104); reset 0 -/
  dormant : Bool := false
  /-- CLU CLOSED, N E S W from bit 0 (R64); reset 0xF -/
  closed : BitVec 4 := 0xF
  /-- CLU XBR_CLOSED (R95); reset 1 -/
  xbrClosed : Bool := true
  /-- its clusters stopped with a discarded tick (R380); reset 0 -/
  stopped : Bool := false
  /-- operations in flight; CLU TAGS is their number (R136); reset empty -/
  ops : List Op := []
  /-- this tick's peak of tags in use; reset 0 -/
  tagPeak : Nat := 0
  /-- commands that the sprigs issued to the units this tick (SPG PG_CNT3); reset 0 -/
  issued : Nat := 0
  /-- corrected memory errors of the sprigs this tick (SPG PG_CNT4); reset 0 -/
  sprigCorrected : Nat := 0
  /-- CLU TAGPEAK as published; reset 0 -/
  tagPeakPub : Nat := 0
  /-- the tag numbers of each issuing unit: sprig × 4 + ctx, 64 sweep engine, 65 boundary engine; default all (R137);
  reset all -/
  tagSets : FMap (Option (List Nat)) := []
  /-- flits sent on VC0–VC3 and tag stall cycles of this tick (CLU PG_CNT0–3, 5), corrected flit errors (PG_CNT4); reset 0 -/
  flits : FMap Nat := []
  tagStall : Nat := 0
  flitCorrected : Nat := 0
  /-- the 1 MiB cluster store (R142); reset 0 -/
  store : Bytes := []
  /-- poisoned lines of the store (R281); reset none -/
  poison : FMap Bool := []
  /-- writes to the store on their way, by the cycle in which they are sure (R175, R288); reset empty -/
  landing : List Landing := []
  /-- banks taken in this tick, WORK cycle × 16 + bank: 1 by a sprig, 2 by a mesh access (R175, R493); reset empty -/
  banks : FMap Nat := []
  /-- WORK cycles from which its crossbar port takes a read, and a write (R126); reset 0 -/
  portRead : Nat := 0
  portWrite : Nat := 0
  /-- the WORK cycle from which its port takes the next line of an HBM read (R260); reset 0 -/
  hbmPort : Nat := 0
  /-- the sprigs; reset as Sprig -/
  sprigs : FMap Sprig := []
  /-- SPG_LAY.DEPTH (R179); reset 1 -/
  layDepth : Nat := 1
  /-- SPG_LAY.PERIOD (R179); reset 0 -/
  layPeriod : Nat := 0
  /-- SPG FLAGS: INVALID, DIVZ, FOVF, QLEFT (R167, R182); reset 0 -/
  spgFlags : BitVec 4 := 0
  /-- SPG QLEFT_SPRIG and QLEFT_CTX with QLEFT seen this tick (R182); reset none -/
  qleft : Option (Sp × Cx) := none
  /-- the matrix engine -/
  me : Me := {}
  /-- the SU array -/
  su : Su := {}
  /-- the draw unit -/
  drw : Drw := {}
  /-- its carried state -/
  carried : Carried := {}
  /-- the conformance record -/
  cnt : Cnt := {}
  /-- this tick's ILLEGAL command, as page type and flag offset (R375); reset none -/
  illegal : Option (Nat × Nat) := none
  /-- device ticks of the residue mismatches of ME lane n (0–15) and of the SU array (16) (R381); reset empty -/
  residues : FMap (List Nat) := []
  /-- device ticks of the memory and parity faults of sprig n (R381); reset empty -/
  sprigFaults : FMap (List Nat) := []
  deriving DecidableEq, Repr, Inhabited

/-- A loaded plan and what its image header states (R365). -/
structure Loaded where
  plan : Plan
  periodUs : Nat
  gradeFast : Nat
  gradeSlow : Nat
  deriving DecidableEq, Repr

/-- What HEDGE_FORM and HEDGE_RESHAPE ask for (R352). -/
structure Shape where
  x0 : Nat
  y0 : Nat
  w : Nat
  h : Nat
  slices : BitVec 256
  borrow : Bool
  gradeFast : Nat
  gradeSlow : Nat
  budget : Nat
  keepPlan : Bool
  deriving DecidableEq, Repr, Inhabited

/-- A completion entry before it is posted (R358): its submit ring, and the fields the device sets. -/
structure CqEntry where
  cookie : Word
  typ : BitVec 8
  status : BitVec 8
  sqHead : BitVec 16
  sqId : BitVec 8
  result : Word
  devTick : Word64
  lag : Word
  offsetNs : Word
  irq : Bool
  deriving DecidableEq, Repr

/-- A trace record (R226). -/
structure TraceRec where
  tick : Word
  sweep : Nat
  flags : BitVec 8
  eCur : Word64
  eBest : Word64
  accepts : Nat
  bramble : Word
  deriving DecidableEq, Repr

/-- A checkpoint whose result is due (R211, R214): the energy in units of 2^-129, whether it is settled, and what the trace
record says of the checkpoint (R226), with the states of every cluster for the best area (R216): sheet × 64 + block. -/
structure Ckpt where
  /-- the WORK cycle at which it was formed -/
  cycle : Nat
  energy : Int
  settled : Bool
  sweep : Nat
  accepts : Nat
  bramble : Word
  states : List (Nat × FMap Word64)
  deriving DecidableEq, Repr

/-- The annealing parameters that are staged together (R219). -/
structure AnnPar where
  /-- SUA_SCHED, default 1.0 (R218); reset 0x3F80_0000 -/
  sched : FMap Word := []
  /-- SUA_TMIN; reset 0x3380_0000 -/
  tmin : Word := 0x33800000
  /-- SUA_TMAX; reset 0x7F7F_FFFF -/
  tmax : Word := 0x7F7FFFFF
  /-- SUA_BRFLOOR; reset 0 -/
  floor : Word := 0
  /-- SUA_BRCEIL; reset 0 -/
  ceil : Word := 0
  /-- SUA_BRSTEP; reset 0 -/
  step : Word := 0
  /-- SUA_BRWIN.A_MIN; reset 0 -/
  amin : Nat := 0
  /-- SUA_BRWIN.W_M1; reset 15 -/
  wm1 : Nat := 15
  deriving DecidableEq, Repr, Inhabited

/-- What a hedge knows of one peer (R230–R232). -/
structure PeerSt where
  /-- the newest frame accepted for the next OPEN: hedge tick, unlocked flag, group states from a first group; reset none -/
  newest : Option (Nat × Bool × List (Nat × Word64)) := none
  /-- the hedge tick of the last frame applied; reset none -/
  applied : Option Nat := none
  /-- a frame has been applied in this OPEN (R231); reset 0 -/
  got : Bool := false
  deriving DecidableEq, Repr, Inhabited

/-- A hedge's annealing run (09_annealing.md; SUA page of the lead cluster). -/
structure Anneal where
  /-- SUA_ANNCFG.WRAP; reset 0 -/
  wrap : Bool := false
  /-- SUA_ANNCFG.ONBEST; reset 0 -/
  onBest : Bool := false
  /-- SUA_ANNCFG.EVERY; reset 0 -/
  every : Nat := 0
  /-- BEST_CLR waits for the boundary (R215); reset 0 -/
  bestClr : Bool := false
  /-- SUA_ANNBASE; reset 0 -/
  base : Word64 := 0
  /-- the parameters in effect -/
  par : AnnPar := {}
  /-- the parameters staged, none when nothing is staged (R219, R491); reset none -/
  staged : Option AnnPar := none
  /-- SUA_BRCONF; reset 0 -/
  brConf : Word := 0
  /-- SUA_TCLAMP; reset 0 -/
  tClamp : Word := 0
  /-- E_best, none for +∞, in units of 2^-129 (R214, R215); reset none (+∞) -/
  eBest : Option Int := none
  /-- E_best as the tick has it so far (R217); reset none -/
  eBestProv : Option Int := none
  /-- ECUR, the last committed checkpoint energy (R214); reset 0 -/
  eCur : Int := 0
  /-- the energy of this tick's last checkpoint; reset none -/
  eCurProv : Option Int := none
  /-- a checkpoint whose result is due (R214); reset none -/
  due : Option Ckpt := none
  /-- checkpoints formed in this tick; reset 0 -/
  formed : Nat := 0
  /-- the running count of checkpoints across ticks (R225); reset 0 -/
  count : Nat := 0
  /-- the running count as this tick has it; reset 0 -/
  countProv : Nat := 0
  /-- the tick's trace records (R227); reset empty -/
  recs : List TraceRec := []
  /-- SUA_TRBASE; reset 0 -/
  trBase : Word64 := 0
  /-- SUA_TRSIZE; reset 6 -/
  trSize : Nat := 6
  /-- SUA_TRHEAD; reset 0 -/
  trHead : Nat := 0
  /-- SUA_TRTAIL; reset 0 -/
  trTail : Nat := 0
  /-- SUA_TRDROP; reset 0 -/
  trDrop : Word := 0
  /-- the next record carries OVERRUN (R227); reset 0 -/
  overrun : Bool := false
  /-- a bramble saturated since the previous record (R226); reset 0 -/
  envelope : Bool := false
  /-- that mark as the last commit left it, to which a discarded tick returns; reset 0 -/
  envBase : Bool := false
  /-- a frame was missing in this tick (R231); reset 0 -/
  stale : Bool := false
  /-- this module or a peer was unlocked in this tick (R226); reset 0 -/
  unlocked : Bool := false
  /-- SUA_XMISS; reset 0 -/
  xMiss : Word := 0
  /-- SUA_XSTALE; reset 0 -/
  xStale : Word := 0
  /-- SUA_XLATE; reset 0 -/
  xLate : Word := 0
  /-- the peers, by index (R228) -/
  peers : FMap PeerSt := []
  deriving DecidableEq, Repr, Inhabited

/-- A KT packet that a send channel holds in the retransmit store (R320, R321). -/
structure SentPkt where
  psn : Word
  offset : Word64
  data : List Byte
  tries : Nat
  /-- its last transmission, in ns after the last boundary (R321); none before the first -/
  sentAt : Option Int
  deriving DecidableEq, Repr

/-- What a channel holds beside its entry (R293, R313–R323). -/
structure ChanX where
  /-- the count line's BYTES (R293); reset 0 -/
  bytes : Word64 := 0
  /-- the count line's PACKETS; reset 0 -/
  packets : Word64 := 0
  /-- PEER_INCARN; reset 0 -/
  peerIncarn : Word := 0
  /-- the next PSN expected, or next to send; reset 0 -/
  psn : Word := 0
  /-- PSNs received beyond the next expected one (R319), with the end of their bytes in the stream; reset empty -/
  ahead : List (Word × Nat) := []
  /-- the first acceptance that no ACK has covered, in ns after the last boundary (R319); reset none -/
  ackAt : Option Int := none
  /-- packets not acknowledged (R320); reset empty -/
  unacked : List SentPkt := []
  /-- bytes appended to the stream of an ordered send channel (R315); reset 0 -/
  stream : Nat := 0
  /-- the peer of the last packet was unlocked (R293); reset 0 -/
  unlocked : Bool := false
  deriving DecidableEq, Repr, Inhabited

/-- An instance (03_hedges.md, 04_instances.md; HDG, HBC, KTP and PWR instance pages, its TCK entry and its lead SUA page). -/
structure Inst where
  /-- HDG_STATE (R91); reset EMPTY -/
  st : IState := .empty
  /-- HDG X0; reset 0 -/
  x0 : Nat := 0
  /-- HDG Y0; reset 0 -/
  y0 : Nat := 0
  /-- HDG WIDTH, 0 when EMPTY; reset 0 -/
  w : Nat := 0
  /-- HDG HEIGHT, 0 when EMPTY; reset 0 -/
  h : Nat := 0
  /-- HDG BORROW (R78); reset 0 -/
  borrow : Bool := false
  /-- HDG GRADE_FAST; reset 0 -/
  gradeFast : Nat := 0
  /-- HDG GRADE_SLOW; reset 3 -/
  gradeSlow : Nat := 3
  /-- HDG BUDGET_W; reset 0 -/
  budget : Nat := 0
  /-- HDG INCARN (R112); reset 0 -/
  incarn : Word := 0
  /-- HDG SLICE0–7 (R68); reset 0 -/
  slices : BitVec 256 := 0
  /-- HDG WALLIN (R66); reset 0 -/
  wallIn : Word := 0
  /-- HDG WALLOUT (R65); reset 0 -/
  wallOut : Word := 0
  /-- HDG BORROW_SLOTS as published; reset 0 -/
  borrowSlots : Word := 0
  /-- slots borrowed in this tick (R80); reset 0 -/
  borrowLive : Nat := 0
  /-- TCK_HTICK (R47); reset 0 -/
  htick : Word64 := 0
  /-- TCK_HLAG (R47, R48); reset 0 -/
  lag : Word := 0
  /-- it has been RUNNING since it was formed (R47, R48); reset 0 -/
  ran : Bool := false
  /-- TCK_HSTAT.OUTCOME; reset 0 -/
  outcome : Nat := 0
  /-- TCK_HSTAT.CONSEC (R53); reset 0 -/
  consec : Nat := 0
  /-- TCK_HSTAT.REPLAYING; reset 0 -/
  replaying : Bool := false
  /-- its last tick was discarded as it left RUNNING, and is the first it runs again (R99, R103); reset 0 -/
  redo : Bool := false
  /-- the tick in progress is discarded for a fault (R50); reset 0 -/
  dFault : Bool := false
  /-- the tick in progress missed its end marker (R50); reset 0 -/
  dMissed : Bool := false
  /-- the tick in progress diverged (R50, R376); reset 0 -/
  dDiverged : Bool := false
  /-- the tick in progress has committed (R51); reset 0 -/
  committed : Bool := false
  /-- the end marker of the tick is reached (R181); reset 0 -/
  endMarker : Bool := false
  /-- the slot is spent on a spare takeover (R384); reset 0 -/
  skip : Bool := false
  /-- it goes HELD at the next boundary, with this event cause (R361); reset none -/
  holdNext : Option Nat := none
  /-- the reshape in progress (R102); reset none -/
  reshape : Option Shape := none
  /-- the ring and sequence number of its descriptor; reset none -/
  reshapeBy : Option (Nat × Nat) := none
  /-- the state to which a KEEP_PLAN topiary returns (R107); reset EMPTY -/
  back : IState := .empty
  /-- the plan loaded (R98); reset none -/
  plan : Option Loaded := none
  /-- a load in progress: the plan, with its ring and sequence number (R98); reset none -/
  loading : Option (Loaded × Nat × Nat × Bool) := none
  /-- segment entries, entry × 4 + word (R261); reset 0 -/
  segs : FMap Word := []
  /-- segment entries whose VALID is cleared at the next boundary (R264); reset empty -/
  segClear : List Nat := []
  /-- window entries, WIN0–WIN15 (R265); reset none -/
  wins : List WinDecl := []
  /-- the selectors, window × 2^32 + line (R266); reset 0 -/
  sel : FMap Bool := []
  /-- the pending lines, as the selectors are numbered (R266); reset none -/
  pend : FMap Bool := []
  /-- segments still to be zeroed (R114); HBC ZEROING and SEGS_LEFT; reset empty -/
  zeroing : List Nat := []
  /-- bytes already zeroed of the segment in progress on each stack (R114); reset 0 -/
  zeroPos : FMap Nat := []
  /-- HBC ZERO_REMAIN, frames; reset 0 -/
  zeroRemain : Nat := 0
  /-- HBC DATALOSS (R101); reset 0 -/
  dataLoss : Bool := false
  /-- HBC KIND; reset 0 -/
  lossKind : Nat := 0
  /-- HBC LOSSADDR; reset 0 -/
  lossAddr : Word64 := 0
  /-- the step of the reset sequence: 0 none, 1 before B1, 2 from B1 to B2, 3 after B2 (R112); reset 0 -/
  resetStep : Nat := 0
  /-- peers that have not acknowledged the abort: port and flow (R112); reset empty -/
  abortWait : List (Nat × Nat) := []
  /-- the reset was asked for by a ring's descriptor: ring and sequence number; reset none -/
  resetBy : Option (Nat × Nat) := none
  /-- KTP SENDLATE; reset 0 -/
  sendLate : Word := 0
  /-- KTP RETX; reset 0 -/
  retx : Word := 0
  /-- KTP AUTHFAIL; reset 0 -/
  authFail : Word := 0
  /-- KTP DROPPED; reset 0 -/
  dropped : Word := 0
  /-- channel entries, channel × 8 + word (R313); reset 0 -/
  chans : FMap Word := []
  /-- channel entry words written and not yet applied (R313), channel × 8 + word; reset none -/
  chanStaged : FMap (Option Word) := []
  /-- what the channels hold -/
  chanX : FMap ChanX := []
  /-- PWR KEEP, the keep source (R412); reset 0 -/
  keepSrc : Word64 := 0
  /-- PWR KEEP_STS (R419); reset 0 -/
  keepSts : Nat := 0
  /-- the tenant keep held after a restore: the incarnation recorded, its bytes, and its tag's verdict; reset none -/
  keep : Option (Word × List Byte) := none
  /-- DMA_IN data written and not yet visible: segment-virtual address and bytes (R32); reset empty -/
  inputs : List (Nat × List Byte) := []
  /-- completion and event entries held until a commit (R360), with their completion ring; reset empty -/
  heldEntries : List (Nat × CqEntry) := []
  /-- the host has enabled the VF (R343); reset 0 -/
  vfEnabled : Bool := false
  /-- the annealing run -/
  ann : Anneal := {}
  /-- TEL INSTPWR; reset 0 -/
  telPwr : Nat := 0
  /-- TEL INSTBUSY; reset 0 -/
  telBusy : Nat := 0
  deriving DecidableEq, Repr, Inhabited

/-- An HBM stack (11_memory.md; HBC stack page). -/
structure Stack where
  /-- TRAINED; reset 0 -/
  trained : Bool := false
  /-- pseudo-channels marked, waiting to migrate, oldest first (R282); reset empty -/
  marked : List Nat := []
  /-- MIGRATING and MIGPC (R283); reset none -/
  migrating : Option Nat := none
  /-- the copy is complete and the read switch is due (R283); reset 0 -/
  switchDue : Bool := false
  /-- MIGPC as last set; reset 0 -/
  migPc : Nat := 0
  /-- RETMAP (R282); reset 0 -/
  retMap : Word64 := 0
  /-- MARGIN_EXH (R284); reset 0 -/
  marginExh : Bool := false
  /-- CE_THR (R282); reset 256 -/
  ceThr : Nat := 256
  /-- the device ticks of each pseudo-channel's correctable errors of the last 65,536 ticks (R282); reset none -/
  ce : FMap (List Nat) := []
  /-- the patrol's position in lines of the stack; SCRUBPOS is its frame (R280); reset 0 -/
  scrubPos : Nat := 0
  /-- SCRUBPASS; reset 0 -/
  scrubPass : Word := 0
  /-- MIGPOS, granules migrated; reset 0 -/
  migPos : Nat := 0
  /-- what the redirect locations of the pseudo-channel that migrates hold, by the address they stand for, and the poisoned lines
  among them (R283); reset empty -/
  redirect : Bytes := []
  redirectBad : FMap Bool := []
  /-- LASTUE; reset 0 -/
  lastUe : Word64 := 0
  deriving DecidableEq, Repr, Inhabited

/-- A die-link module (R128–R134; D2D page). -/
structure D2d where
  /-- UP; reset 0 -/
  up : Bool := false
  /-- RETRAINING (R133); reset 0 -/
  retraining : Bool := false
  /-- DEGRADED (R132); reset 0 -/
  degraded : Bool := false
  /-- SPARES_USED; reset 0 -/
  spares : Nat := 0
  /-- a lane is being repaired in this OPEN, so the module's slots idle (R131); reset 0 -/
  repairing : Bool := false
  /-- ERRTHR (R131); reset 64 -/
  errThr : Nat := 64
  /-- BADLANE; reset 0 -/
  badLane : Word64 := 0
  deriving DecidableEq, Repr, Inhabited

/-- Shared fabric state (05_fabric.md; XBR and GLB maps). -/
structure Fabric where
  /-- the repair map, die × 8 + row; default 15, no entry (R116); reset none -/
  repMap : FMap Nat := []
  /-- XBR_REPPEND: staged entries, die × 8 + row; default 15 (R382); reset none -/
  repPend : FMap Nat := []
  /-- staged entries whose takeover copy completed before this COMMIT started (R384); reset none -/
  copyDone : FMap Bool := []
  /-- copies that completed after this COMMIT started (R384); reset none -/
  copyLate : FMap Bool := []
  /-- stitch wire groups with their spare in use, die × 64 + group (R127); reset 0 -/
  stitch : FMap Bool := []
  /-- stitch wire groups whose spare takes over in the next COMMIT/OPEN window, numbered as stitch (R127); reset none -/
  stitchPend : FMap Bool := []
  /-- die-link modules; reset as D2d -/
  d2d : FMap D2d := []
  deriving DecidableEq, Repr, Inhabited

/-- One descriptor of a submit ring between fetch and completion, in ring order (R351). -/
structure RingSlot where
  seq : Nat
  desc : BitVec 512
  begun : Bool
  /-- the submit ring's head after this descriptor (R358) -/
  headAfter : Nat
  entry : Option CqEntry
  deriving DecidableEq, Repr

/-- A ring (R346–R351; RNG page). -/
structure Ring where
  /-- ENABLE; reset 0 -/
  enable : Bool := false
  /-- KIND, 1 completion; reset 0 -/
  kind : Bool := false
  /-- LOG2; reset 4 -/
  log2 : Nat := 4
  /-- OWNER (R346); reset 0 -/
  owner : Nat := 0
  /-- CQ; reset 0 -/
  cq : Nat := 0
  /-- VECTOR (R362); reset 0 -/
  vector : Nat := 0
  /-- IRQ_MODE (R362); reset 0 -/
  irqMode : Bool := false
  /-- BASE; reset 0 -/
  base : Word64 := 0
  /-- HEAD; reset 0 -/
  head : Nat := 0
  /-- TAIL; reset 0 -/
  tail : Nat := 0
  /-- SNAP (R349); reset 0 -/
  snap : Nat := 0
  /-- FENCED (R355); reset 0 -/
  fenced : Bool := false
  /-- CQ_WAIT (R350); reset 0 -/
  cqWait : Bool := false
  /-- STS.PHASE of a completion ring (R359); reset 0 -/
  phase : Bool := false
  /-- accepted descriptors in ring order, with their entries once finished (R351); reset empty -/
  slots : List RingSlot := []
  /-- the next sequence number of its descriptors (model); reset 0 -/
  nextSeq : Nat := 0
  /-- an MSI-X message is due this tick (R362, IRQ_MODE 1); reset 0 -/
  irqDue : Bool := false
  deriving DecidableEq, Repr, Inhabited

/-- The transfer descriptors (15_host.md, Terms). -/
inductive XferKind where
  | dmaIn | dmaOut | entropy | trace
  /-- the read of a plan image (R98) -/
  | image
  /-- the read of a due send of a channel, with the stream or region offset of its first byte (R316) -/
  | send (chan base : Nat)
  deriving DecidableEq, Repr

/-- A transfer in progress: of a descriptor (R351, R354–R357), of a plan image (R98) or of a planned send (R316). -/
structure Transfer where
  id : Nat
  ring : Nat
  seq : Nat
  kind : XferKind
  inst : Nat
  host : Nat
  va : Nat
  len : Nat
  /-- the ring in memory in which its addresses wrap: base and length, 0 for none (R357) -/
  base : Nat
  wrap : Nat
  /-- bytes that have passed the PCIe link and the port spine, and that are at their destination -/
  pcie : Nat
  spine : Nat
  moved : Nat
  status : Nat
  /-- its instance has been reset: what the host still returns goes to the discard sink (R112) -/
  dead : Bool
  /-- host to device: what the host read returns; device to host: what the memory reads have returned -/
  data : List Byte
  deriving DecidableEq, Repr

/-- A PCIe controller and its port die's tags (PCI page). -/
structure Pci where
  /-- LINK.SPEED; reset 0 -/
  speed : BitVec 4 := 0
  /-- LINK.WIDTH; reset 0 -/
  width : BitVec 5 := 0
  /-- LINK.UP; reset 0 -/
  up : Bool := false
  /-- CPLTO (R340); reset 50 -/
  cplto : BitVec 16 := 50
  /-- SINKB (R364); reset 0 -/
  sinkB : Word := 0
  /-- SINKP (R364); reset 0 -/
  sinkP : Word := 0
  /-- REGDROP (R465); reset 0 -/
  regDrop : Word := 0
  /-- TAGS by instance; default 64 for 0, else 0 (R363) -/
  tags : FMap (Option Nat) := []
  /-- INUSE by instance (R363); reset 0 -/
  inUse : FMap Nat := []
  /-- VFVIOL by instance (R344); reset 0 -/
  vfViol : FMap Word := []
  deriving DecidableEq, Repr, Inhabited

/-- What a frame carries out (R300, R306, R309). -/
inductive TxBody where
  | kt (flow : Nat) (p : KtPacket)
  | arpReply (ip : Word) (toMac : BitVec 48) (toIp : Word)
  | neighbourReply (ip : BitVec 128) (toMac : BitVec 48) (toIp : BitVec 128)
  | ptp (k : PtpTx) (domain : BitVec 7) (transport : BitVec 2) (oneStep : Bool) (clockClass : Option Nat)
  deriving DecidableEq, Repr

/-- A frame the device has ready to send on a port (R302, R303). -/
structure TxFrame where
  id : Nat
  owner : Nat
  /-- 0 boundary frame, 1 send entry packet, 2 retransmission, 3 acknowledgement, 4 management -/
  rank : Nat
  prio : Nat
  bytes : Nat
  body : TxBody
  inst : Nat
  /-- the sub-port that carries it in split mode -/
  sub : Nat
  /-- the send it belongs to, by its transfer's id, and the send channel of its instance (rank 1) -/
  send : Nat
  chan : Nat
  deriving DecidableEq, Repr

/-- A Kaluri frame on the wire (R298, R299, R309): the headers' fields, and the UDP payload in network byte order. -/
structure WireFrame where
  dstMac : BitVec 48
  srcMac : BitVec 48
  /-- the C-tag's PCP and VID, none for an untagged frame -/
  tag : Option (Nat × Nat)
  ipv6 : Bool
  dscp : Nat
  dontFragment : Bool
  srcIp : BitVec 128
  dstIp : BitVec 128
  srcPort : BitVec 16
  dstPort : BitVec 16
  check : BitVec 16
  payload : List Byte
  deriving DecidableEq, Repr

/-- Data on its way to an instance's memory (R305, R339, R419): a Kaluri packet's payload, a sensor packet's, the header that
closes a sensor frame, or the tenant keep. -/
inductive Arrival where
  | kt (port flow : Nat) (p : KtPacket)
  | sensor (ch : Nat) (idx : Word)
  | header (ch : Nat) (idx : Word)
  | keep
  deriving DecidableEq, Repr

/-- Such data: where it goes, what has passed the sensor writer, and what has reached memory. -/
structure Delivery where
  id : Nat
  inst : Nat
  va : Nat
  data : List Byte
  written : Nat
  moved : Nat
  what : Arrival
  deriving DecidableEq, Repr

/-- An Ethernet port (R297–R303; ETH page). -/
structure Eth where
  /-- MODE as written; reset 0 -/
  mode : BitVec 2 := 0
  /-- the mode in use since the link last restarted (ETH page); reset 0 -/
  modeNow : BitVec 2 := 0
  /-- CR; reset 0 -/
  cr : Bool := false
  /-- UP; reset 0 -/
  up : BitVec 4 := 0
  /-- MAC; reset 0 -/
  mac : BitVec 48 := 0
  /-- IPV4; reset 0 -/
  ipv4 : Word := 0
  /-- IPV6; reset 0 -/
  ipv6 : BitVec 128 := 0
  /-- PFC HONOR; reset 0 -/
  honor : BitVec 8 := 0
  /-- PFC GEN; reset 0 -/
  gen : BitVec 8 := 0
  /-- PFC XOFF; reset 80 -/
  xoff : BitVec 8 := 80
  /-- PFC XON; reset 50 -/
  xon : BitVec 8 := 50
  /-- FEC_CORR; reset 0 -/
  fecCorr : Word := 0
  /-- FEC_UNCORR; reset 0 -/
  fecUncorr : Word := 0
  /-- RXOTHER (R300); reset 0 -/
  rxOther : Word := 0
  /-- frames received and sorted, oldest first (R300); reset empty -/
  rxq : List FrameBody := []
  /-- priorities that a received PFC pauses (R301); reset 0 -/
  paused : BitVec 8 := 0
  /-- priorities for which the device has PFC in force (R301); reset 0 -/
  pfcOn : BitVec 8 := 0
  /-- frames ready for transmission (R302); reset empty -/
  txq : List TxFrame := []
  /-- ns of wire time that the frame in progress still takes, by sub-port (R302); reset 0 -/
  txBusy : FMap Nat := []
  deriving DecidableEq, Repr, Inhabited

/-- What a flow holds beside its entry (R312, R323–R325). -/
structure FlowX where
  /-- a REMOTE_INCARN that waits for the boundary (R312); reset none -/
  staged : Option Word := none
  /-- an ABORT named this flow's REMOTE_INCARN (R323); reset 0 -/
  aborted : Bool := false
  /-- the two key slots: key and salt (R325); reset none -/
  key0 : Option (BitVec 256 × Word) := none
  key1 : Option (BitVec 256 × Word) := none
  /-- TXCTR (R324); reset 0 -/
  txctr : Word64 := 0
  deriving DecidableEq, Repr, Inhabited

/-- A Kaluri port (R304, R309–R325; KTP port page). -/
structure Ktp where
  /-- UDPPORT; reset 47104 -/
  udpPort : BitVec 16 := 47104
  /-- STORE_FREE (R313); reset 8388608 -/
  storeFree : Nat := 8388608
  /-- KEYDATA0–7, the staged key (R325); reset 0 -/
  keyData : FMap Word := []
  /-- SALT, staged (R325); reset 0 -/
  salt : Word := 0
  /-- flow entries, flow × 12 + word (R312); reset 0 -/
  flows : FMap Word := []
  /-- what the flows hold -/
  flowX : FMap FlowX := []
  deriving DecidableEq, Repr, Inhabited

/-- The PTP clock (R306–R308; PTP page). -/
structure Ptp where
  /-- DOMAIN; reset 0 -/
  domain : BitVec 7 := 0
  /-- PORT in effect (R308); reset 0 -/
  port : BitVec 2 := 0
  /-- a PORT that waits for the boundary (R308); reset none -/
  portStaged : Option (BitVec 2) := none
  /-- TRANSPORT; reset 0 -/
  transport : BitVec 2 := 0
  /-- ONESTEP; reset 0 -/
  oneStep : Bool := false
  /-- RXONLY (R306); reset 1 -/
  rxOnly : Bool := true
  /-- STATE; reset 0 -/
  state : BitVec 4 := 0
  /-- OFFSET_NS; reset 0 -/
  offset : Int := 0
  /-- PATHDELAY_NS; reset 0 -/
  delay : Int := 0
  /-- GMID; reset 0 -/
  gmId : Word64 := 0
  deriving DecidableEq, Repr, Inhabited

/-- What SENSOR_BIND asks for (R326). -/
structure Bind where
  unbind : Bool
  framing : Bool
  partialPol : Bool
  ipv6 : Bool
  vlanEn : Bool
  port : BitVec 2
  subport : BitVec 2
  vid : BitVec 12
  udpPort : BitVec 16
  rate : Nat
  ftimeout : Nat
  slotsLog2 : Nat
  slotLen : Nat
  src : BitVec 128
  ringBase : Word64
  statusLine : Word64
  consLine : Word64
  deriving DecidableEq, Repr, Inhabited

/-- An open frame of a sensor channel (R332). -/
structure OpenFrame where
  frameNo : Word
  total : Nat
  ranges : List (Nat × Nat)
  packets : Nat
  flags : BitVec 8
  ptpNs : Word64
  devTick : Word64
  lag : Word
  offsetNs : Word
  deriving DecidableEq, Repr

/-- A sensor-ingest channel (14_sensors.md; SNS page). -/
structure Sns where
  /-- OWNER (R326); reset 0 -/
  owner : Nat := 0
  /-- BOUND; reset 0 -/
  bound : Bool := false
  /-- FRAMING, PARTIAL, IPV6, VLAN_EN, PORT, SUBPORT, VID, UDPPORT, RATE, FTIMEOUT, SLOTS_LOG2, SLOT_LEN, SRC, RING_BASE,
  STATUS_LINE and CONS_LINE; reset 0, FTIMEOUT 1000 -/
  bind : Bind := { (default : Bind) with ftimeout := 1000 }
  /-- a binding that waits for the boundary (R327), with the ring and sequence number of its descriptor; reset none -/
  staged : Option (Bind × Nat × Nat) := none
  /-- PROD (R337); reset 0 -/
  prod : Word := 0
  /-- CONS (R338); reset 0 -/
  cons : Word := 0
  /-- the index of the open frame, or of the next one (R332, R336); reset 0 -/
  nextIdx : Word := 0
  /-- frames below this index are accepted (R337); reset 0 -/
  accepted : Word := 0
  /-- frames that have closed and are not yet accepted, oldest first, each with its index (R332, R336); reset empty -/
  closing : List (Word × OpenFrame) := []
  /-- the open frame (R332); reset none -/
  openF : Option OpenFrame := none
  /-- the frame whose slot drops its remaining packets (R333); reset none -/
  dropping : Option Word := none
  /-- tokens left in the policing bucket, bytes (R335); reset 262144 -/
  bucket : Nat := 262144
  /-- the PTP time at which the bucket was last brought up to date (R335); reset 0 -/
  bucketAt : Nat := 0
  /-- the status line's DROPS and POLICED, cumulative; reset 0 -/
  drops : Word := 0
  policed : Word := 0
  deriving DecidableEq, Repr, Inhabited

/-- The entropy page (R240–R256; ENT). -/
structure Ent where
  /-- OK; reset 0 -/
  ok : BitVec 4 := 0
  /-- FAIL (R242); reset 0 -/
  fail : BitVec 4 := 0
  /-- channels whose start-up test runs (R241, R242); reset 0 -/
  starting : BitVec 4 := 0
  /-- DEGRADED (R256); reset 0 -/
  degraded : Bool := false
  /-- KEYDRBG (R243); reset 0 -/
  keyDrbg : Bool := false
  /-- P1's standby instance of the key DRBG is instantiated (R243); reset 0 -/
  keyStandby : Bool := false
  /-- class A bits of this tick that the key DRBG has taken (R243, R255); reset 0 -/
  keyBits : Nat := 0
  /-- class A bits that DRAW_ENTROPY may still draw in this tick (R255); reset 0 -/
  pool : Nat := 0
  /-- SEEDMAP (R247); reset 0xE4 -/
  seedMap : BitVec 8 := 0xE4
  /-- TRIMENV.LO, signed (R236); reset -32 -/
  trimLo : Int := -32
  /-- TRIMENV.HI (R236); reset 31 -/
  trimHi : Int := 31
  /-- a trim envelope that waits for the boundary (R394); reset none -/
  trimStaged : Option (Int × Int) := none
  /-- TRIMCONF; reset 0 -/
  trimConf : Word := 0
  /-- NOISESUB, blocks substituted; reset 0 -/
  noiseSub : Nat := 0
  /-- SEEDMISS (R248); reset 0 -/
  seedMiss : Word := 0
  deriving DecidableEq, Repr, Inhabited

/-- A supervisor (R387–R392; SUP page). Its ROLE at reset is P0 primary, P1 standby, P2 and P3 witness (R387). -/
structure Sup where
  /-- it was declared failed (R389); reset 0 -/
  failed : Bool := false
  /-- NOQUORUM (R388); reset 0 -/
  noQuorum : Bool := false
  /-- TERM (R389); reset 0 -/
  term : Word := 0
  /-- SUSPECT (R387); reset 0 -/
  suspect : BitVec 4 := 0
  /-- VOTED (R388); reset 0 -/
  voted : BitVec 4 := 0
  /-- MIRSEQ (R390); reset 0 -/
  mirSeq : Word := 0
  /-- a forced takeover that waits for the boundary (R392; P1's page); reset 0 -/
  force : Bool := false
  /-- consecutive heartbeats missed from each other supervisor (R387); reset 0 -/
  missed : FMap Nat := []
  deriving DecidableEq, Repr, Inhabited

/-- An error log entry (R399). -/
structure ErrEntry where
  devTick : Word64
  offsetNs : Word
  sev : Sev
  srcType : BitVec 8
  srcInst : BitVec 12
  code : BitVec 16
  inst : Nat
  lostBefore : Bool
  injected : Bool
  mirrored : Bool
  seq : Word
  detail : Word64
  deriving DecidableEq, Repr

/-- The error log (R399; ERR page). -/
structure Err where
  /-- the entries, slot number to entry (R399); reset empty -/
  log : List (Nat × ErrEntry) := []
  /-- HEAD; reset 0 -/
  head : Nat := 0
  /-- TAIL; reset 0 -/
  tail : Nat := 0
  /-- entries not yet read, at most 2,048; reset 0 -/
  count : Nat := 0
  /-- SEQ; reset 0 -/
  seq : Word := 0
  /-- LOST; reset 0 -/
  lost : Word := 0
  deriving DecidableEq, Repr, Inhabited

/-- The voltage and equaliser loops of one die (R395, R398; AVS die page). VNOW, VMIN and VMAX reset to values fused in
the part (R395), which the model names in entry 4. -/
structure Avs where
  /-- VNOW, mV; reset fused, 600 [4] -/
  vnow : Nat := 600
  /-- VMIN; reset fused, 600 [4] -/
  vmin : Nat := 600
  /-- VMAX; reset fused, 1000 [4] -/
  vmax : Nat := 1000
  /-- the fused VMIN and VMAX that writes may not leave (R395); 600 and 1000 [4] -/
  fusedMin : Nat := 600
  fusedMax : Nat := 1000
  /-- an envelope that waits for the boundary (R394); reset none -/
  staged : Option (Nat × Nat) := none
  /-- MARGIN_LOW; reset 0 -/
  marginLow : Bool := false
  /-- VCONF; reset 0 -/
  vconf : Word := 0
  /-- EQLO; reset 0 -/
  eqLo : Nat := 0
  /-- EQHI; reset 255 -/
  eqHi : Nat := 255
  /-- an equaliser envelope that waits for the boundary (R394); reset none -/
  eqStaged : Option (Nat × Nat) := none
  /-- EQCONF; reset 0 -/
  eqConf : Word := 0
  /-- the equaliser settings of its receivers, lane × 2, plus 1 for an Ethernet lane (R398); reset 0 [4] -/
  eq : FMap Int := []
  deriving DecidableEq, Repr, Inhabited

/-- The clock-grade loop (R396; AVS device page). -/
structure AvsDev where
  /-- GRADE in effect; reset 0 -/
  grade : Nat := 0
  /-- EFF_FAST and EFF_SLOW, the effective envelope as the last boundary has it (R396, R492); reset 0 and 3 -/
  effFast : Nat := 0
  effSlow : Nat := 3
  /-- GENV_FAST; reset 0 -/
  genvFast : Nat := 0
  /-- GENV_SLOW; reset 3 -/
  genvSlow : Nat := 3
  /-- a grade envelope that waits for the boundary (R394); reset none -/
  genvStaged : Option (Nat × Nat) := none
  /-- GCONF; reset 0 -/
  gconf : Word := 0
  /-- GUP; reset 1024 -/
  gup : Nat := 1024
  /-- consecutive ticks without a demand to slow down (R396); reset 0 -/
  clean : Nat := 0
  /-- the device tick of the last conflict entry of each loop (R394); reset none -/
  lastConf : FMap (Option Nat) := []
  deriving DecidableEq, Repr, Inhabited

/-- Power, hold-up and the field connector (18_power.md; PWR page). -/
structure Pwr where
  /-- the module is on and has power (R402, R414); reset 1 [4] -/
  on : Bool := true
  /-- the input has been good for 100 ms and has not failed since, so the start is permitted (R402); reset 0 [4] -/
  permitted : Bool := false
  /-- INPUT_OK; reset 0 -/
  inputOk : Bool := false
  /-- SAG_WARN (R404); reset 0 -/
  sagWarn : Bool := false
  /-- HOLD_OK (R406); reset 0 -/
  holdOk : Bool := false
  /-- CHARGING; reset 0 -/
  charging : Bool := false
  /-- HOLD_CLASS; reset 0 -/
  holdClass : BitVec 3 := 0
  /-- SAVING; reset 0 -/
  saving : Bool := false
  /-- compute dies, HBM and links are powered (R411); reset 1 [4] -/
  computeOn : Bool := true
  /-- the bank switch is closed (R408); reset 1 [4] -/
  bankSwitch : Bool := true
  /-- VIN, mV; reset 0 -/
  vin : BitVec 16 := 0
  /-- VHOLD, mV; reset 0 -/
  vhold : BitVec 16 := 0
  /-- PIN, W; reset 0 -/
  pin : Nat := 0
  /-- HOLD_C, 10 µF; reset 0 -/
  holdC : BitVec 16 := 0
  /-- HOLD_ESR, 0.1 mΩ; reset 0 -/
  holdEsr : BitVec 16 := 0
  /-- NOHOLD_OK (R407); reset 0 -/
  noHoldOk : Bool := false
  /-- LEAK_ACT (R427); reset 1 -/
  leakAct : Bool := true
  /-- SHDN_EN (R428); reset 1 -/
  shdnEn : Bool := true
  /-- INCAP (R422); reset 1100 -/
  incap : Nat := 1100
  /-- PWR_SAVE.VALID; reset 0 -/
  saveValid : Bool := false
  /-- FROM_P1; reset 0 -/
  fromP1 : Bool := false
  /-- CAUSE; reset 0 -/
  cause : Nat := 0
  /-- SAVESEQ; reset 0 -/
  saveSeq : Word := 0
  /-- FLD and FLD2: line states (R426), 0 OK 1 OPEN 2 SHORT 3 FOREIGN; reset 0 -/
  fld : FMap (BitVec 2) := []
  /-- drivers that are off until their retry (R426); reset none -/
  driverOff : FMap Bool := []
  /-- SLOT_ID and STRAP_OPEN, read at power-up; reset by straps, 0 [4] -/
  slotId : BitVec 4 := 0
  strapOpen : BitVec 4 := 0
  /-- PWR_TRIG; reset 0 -/
  trig : BitVec 16 := 0
  /-- TRIGTS0–3; reset 0 -/
  trigTs : FMap Word := []
  /-- the MRAMs of P0 and P1, a save set from byte 0 on (R413, R416); zero at the first power-up [4] -/
  mram0 : Bytes := []
  mram1 : Bytes := []
  /-- the last save was interrupted before its header was written (R415); reset 0 [4] -/
  interrupted : Bool := false
  /-- the save set being written (R413); reset none -/
  writing : Option Bytes := none
  deriving DecidableEq, Repr, Inhabited

/-- Temperatures (R420–R423; THM page). -/
structure Thm where
  /-- OVERRIDE (R397); reset 0 -/
  override : Bool := false
  /-- an injected critical temperature waits for the boundary (R397, R401); reset 0 -/
  injected : Bool := false
  /-- WARNMAP; reset 0 -/
  warnMap : BitVec 20 := 0
  /-- CRITMAP; reset 0 -/
  critMap : BitVec 20 := 0
  /-- WARN; reset 95 -/
  warn : Nat := 95
  /-- CRIT; reset 105 -/
  crit : Nat := 105
  /-- COOL_WARN; reset 45 -/
  coolWarn : Nat := 45
  /-- COOL_TRIP; reset 55 -/
  coolTrip : Nat := 55
  /-- COOLT, 0.1 °C; reset 0 -/
  coolT : Int := 0
  /-- the coolant stands above WARN (R423); reset 0 -/
  coolWarned : Bool := false
  /-- TEMP by entry, 0.1 °C; reset 0 -/
  temps : FMap Int := []
  /-- consecutive ticks with every part below warning (R421); reset 0 -/
  below : Nat := 0
  deriving DecidableEq, Repr, Inhabited

/-- Start-up, firmware and configuration (19_startup.md; GLB and CFG pages). -/
structure Glb where
  /-- STAGE; reset 0 -/
  stage : Nat := 0
  /-- READY; reset 0 -/
  ready : Bool := false
  /-- the input is good (R402) and PERST# is released (R431), so the stages run; reset 0 -/
  t0 : Bool := false
  /-- PERST# is released (R430, R431); reset 0 [4] -/
  perst : Bool := false
  /-- BOOT_MS; reset 0 -/
  bootMs : Nat := 0
  /-- FW_SEL; reset 0 -/
  fwSel : Bool := false
  /-- FW_VERSION; reset 0 -/
  fwVersion : Word := 0
  /-- SVN running; reset 0 -/
  svn : Nat := 0
  /-- FUSED_P0, burned fuses; reset fused, 0 [4] -/
  fused0 : Nat := 0
  /-- FUSED_P1; reset fused, 0 [4] -/
  fused1 : Nat := 0
  /-- SLOT booted; reset 0 -/
  slot : Bool := false
  /-- DIES_C (R443); reset 0 -/
  diesC : BitVec 8 := 0
  /-- DIES_P; reset 0 -/
  diesP : BitVec 4 := 0
  /-- the boot record's active slot (R434); 0 [4] -/
  bootSlot : Bool := false
  /-- the boot record's last restored SEQ (R448); 0 [4] -/
  lastRestored : Word := 0
  /-- the repair record's clusters, die × 72 + row × 9 + column (R442); none [4] -/
  repairRec : List Nat := []
  /-- the repair record's lanes, stitch groups and pseudo-channels (19, Terms); none [4] -/
  repairLanes : FMap Word64 := []
  repairStitch : FMap Bool := []
  repairPcs : FMap Word64 := []
  /-- CFG_STS.COPY; reset 0 -/
  copy : Nat := 0
  /-- DEFAULTED; reset 0 -/
  defaulted : Bool := false
  /-- A_FAIL; reset 0 -/
  aFail : Nat := 0
  /-- B_FAIL; reset 0 -/
  bFail : Nat := 0
  /-- CHECK; reset 0 -/
  check : Word := 0
  /-- GEN; reset 0 -/
  gen : Word := 0
  /-- RESTORE of the configuration in use; reset 0 -/
  noRestore : Bool := false
  /-- CFG_RESTORE; reset 0 -/
  restore : Nat := 0
  /-- SPDM measurements 1 and 3, and the fused SVNs of measurement 2 (R446), taken at FIRMWARE; reset 0 -/
  measFw : BitVec 384 := 0
  measCfg : BitVec 384 := 0
  measFused0 : Nat := 0
  measFused1 : Nat := 0
  /-- FL_ADDR; reset 0 -/
  flAddr : BitVec 28 := 0
  /-- FL_BUSY with the operation in progress; reset none -/
  flOp : Option (BitVec 2) := none
  /-- FL_REFUSED; reset 0 -/
  flRefused : Bool := false
  /-- FL_DATA, the 2 KiB window by byte; reset 0 -/
  flData : Bytes := []
  /-- the 256 MiB flash; an unlisted byte reads 0xFF here stored as its complement, so the default is erased [5] -/
  flash : Bytes := []
  /-- flash erase counts by 64 KiB block (R416); reset 0 -/
  erases : FMap Nat := []
  deriving DecidableEq, Repr, Inhabited

/-- Telemetry (R476; TEL page). -/
structure Tel where
  /-- INTERVAL; reset 1000 -/
  interval : Nat := 1000
  /-- EN; reset 1 -/
  en : Bool := true
  /-- PENDING; reset 0 -/
  pending : Bool := false
  /-- COPPICE slots the snapshot in progress has used; reset 0 -/
  used : Nat := 0
  /-- device tick of the snapshot in progress; reset 0 -/
  startTick : Word64 := 0
  /-- the last tick in which a snapshot fell due and was begun or skipped (R476); reset none -/
  seen : Option Word64 := none
  /-- SNAPTICK; reset 0 -/
  snapTick : Word64 := 0
  /-- COPPICES; reset 0 -/
  coppices : Nat := 0
  /-- DIEPWR; reset 0 -/
  diePwr : FMap Nat := []
  /-- HBMPWR; reset 0 -/
  hbmPwr : FMap Nat := []
  deriving DecidableEq, Repr, Inhabited

/-- What leaves the device (entry 7): a command that makes the device emit something appends it here. -/
inductive Output where
  | hostWrite (addr : Nat) (data : List Byte)
  | msix (fn : Nat) (vector : Nat)
  | readValue (f addr : Nat) (vs : List Word)
  | completerAbort (f addr : Nat)
  | frame (port sub : Nat) (w : WireFrame)
  | arpReply (port sub : Nat) (mac : BitVec 48) (ip : Word) (toMac : BitVec 48) (toIp : Word)
  | neighbourReply (port sub : Nat) (mac : BitVec 48) (ip : BitVec 128) (toMac : BitVec 48) (toIp : BitVec 128)
  | ptp (port sub : Nat) (k : PtpTx) (domain : BitVec 7) (transport : BitVec 2) (oneStep : Bool) (clockClass : Option Nat)
    (ptpNs : Word64)
  | pfc (port : Nat) (prio : Nat) (pause : Bool)
  | tickOut
  | pin (name : String) (level : Bool)
  | smbAlert
  | spdm (q : SpdmReq) (supported : Bool) (data : List Byte)
  | pldm (q : PldmSensor) (v : Int)
  deriving DecidableEq, Repr

/-- A state change accepted and awaiting its boundary (R92, R93). -/
inductive Staged where
  | run | stop | loaded
  | form (s : Shape)
  | reshape (s : Shape)
  deriving DecidableEq, Repr

/-- A staged change with its instance, whether management asked for it, and the ring slot to complete. -/
structure StagedOp where
  inst : Nat
  mgmt : Bool
  op : Staged
  ring : Nat
  seq : Nat
  deriving DecidableEq, Repr

/-- Why a step can stop (entry 2). No meaning of this model ends in a fault: every effect of the spec that stops the
device's work is an effect on the state (a discarded tick, a HELD hedge, a save, a recovery mode). -/
inductive Fault where
  /-- Raised by nothing. It stands for a machine check outside the manual; safe. -/
  | outsideManual
  deriving DecidableEq, Repr

/-- Why a command has no meaning. -/
inductive Refusal where
  /-- Raised by an arm of Machine/Dispatch.lean that has no meaning; no arm of this model raises it; safe. -/
  | notModelled (mnemonic : String)
  deriving DecidableEq, Repr

/-- The Zathes-512 module. -/
structure State where
  /-- the commands that wait, first in first out (model); reset empty -/
  pending : List Instr := []
  /-- how many free values have been taken (model, entry 6); reset 0 -/
  fresh : Nat := 0
  /-- how many WORK phases have begun since power came up, device resets included: with the cycle in WORK it names a sample of a noise
  source (model, entry 6); reset 0 -/
  epoch : Nat := 0
  /-- what the device has emitted, oldest first (model, entry 7); reset empty -/
  out : List Output := []
  /-- common headers by page number, PF BAR0 address ÷ 4 KiB (R449) -/
  pgs : FMap PgHdr := []
  /-- the tick unit -/
  tck : Tck := {}
  /-- the 97 calendars -/
  cals : FMap Cal := []
  /-- the calendar control page -/
  calCtl : CalCtl := {}
  /-- the instances 1–64 by id -/
  insts : FMap Inst := []
  /-- state changes accepted and waiting (R92) -/
  staged : List StagedOp := []
  /-- the 512 clusters by id -/
  clusters : FMap Cluster := []
  /-- repair maps, stitch and die links -/
  fabric : Fabric := {}
  /-- meshes and slice ports by instance -/
  nets : FMap Net := []
  /-- HBM and slices by device physical address (R257) -/
  mem : Bytes := []
  /-- poisoned lines: device physical address ÷ 64 (R281) -/
  poison : FMap Bool := []
  /-- the eight HBM stacks by die -/
  hbm : FMap Stack := []
  /-- the 256 rings -/
  rings : FMap Ring := []
  /-- transfer descriptors in progress (R351) -/
  xfers : List Transfer := []
  /-- the next transfer or delivery id (model); reset 0 -/
  nextXfer : Nat := 0
  /-- data on its way from the ports to memory (R305, R339); reset empty -/
  deliveries : List Delivery := []
  /-- the PCIe pages by port die -/
  pci : FMap Pci := []
  /-- service has failed over to P1 (R342); reset 0 -/
  failedOver : Bool := false
  /-- SR-IOV VF enables stand in Inst.vfEnabled; latched _HI words by function and register (R462) -/
  hiLatch : FMap (Option Word) := []
  /-- held _LO writes by function and register (R462) -/
  loHeld : FMap (Option Word) := []
  /-- register requests in each function's queue (R465); reset 0 -/
  regQueue : FMap Nat := []
  /-- the Ethernet ports -/
  eth : FMap Eth := []
  /-- the Kaluri port pages -/
  ktp : FMap Ktp := []
  /-- the PTP clock -/
  ptp : Ptp := {}
  /-- the sensor channels -/
  sns : FMap Sns := []
  /-- the entropy page -/
  ent : Ent := {}
  /-- the four supervisors -/
  sup : FMap Sup := []
  /-- the error log -/
  errs : Err := {}
  /-- AVS die pages, 0–7 C0–C7, 8–11 P0–P3 -/
  avs : FMap Avs := []
  /-- the AVS device page -/
  avsDev : AvsDev := {}
  /-- power -/
  pwr : Pwr := {}
  /-- temperatures -/
  thm : Thm := {}
  /-- start-up and configuration -/
  glb : Glb := {}
  /-- telemetry -/
  tel : Tel := {}
  /-- the next frame id on the ports (model); reset 0 -/
  nextFrame : Nat := 0
  deriving DecidableEq, Repr, Inhabited

/-- The machine right after reset (R11, R430, R431): stage ROM, every instance EMPTY, every calendar unowned, no memory
listed, no command waiting. -/
def State.reset : State := {}

end Sys2Proof.Machine
end

