-- ==== Sys2Proof/Machine/Maps.lean ====
section
/-! DEFINITION. Machine/Maps.lean: the one way to read and write the finite maps of State and its byte memories, and the
canonical form they keep: keys strictly rising, no entry equal to what an unlisted key reads as. -/

namespace Sys2Proof.Machine

/-- The value at a key; an unlisted key reads as `d`. -/
def mget {α : Type} : FMap α → α → Nat → α
  | [], d, _ => d
  | (i, v) :: t, d, k => if i = k then v else mget t d k

/-- Put a value at a key, keeping the keys rising. -/
def minsert {α : Type} : FMap α → Nat → α → FMap α
  | [], k, v => [(k, v)]
  | (i, w) :: t, k, v =>
    if k < i then (k, v) :: (i, w) :: t
    else if k = i then (k, v) :: t
    else (i, w) :: minsert t k v

/-- Take a key out. -/
def merase {α : Type} : FMap α → Nat → FMap α
  | [], _ => []
  | (i, w) :: t, k => if i = k then merase t k else (i, w) :: merase t k

/-- Write a value at a key: the default value is not listed. -/
def mset {α : Type} [DecidableEq α] (m : FMap α) (d : α) (k : Nat) (v : α) : FMap α :=
  if v = d then merase m k else minsert m k v

/-- Apply a function at a key. -/
def mmod {α : Type} [DecidableEq α] (m : FMap α) (d : α) (k : Nat) (f : α → α) : FMap α :=
  mset m d k (f (mget m d k))

/-- Apply a function to every listed value; one that becomes the default leaves the map. -/
def mmap {α : Type} [DecidableEq α] (d : α) (f : Nat → α → α) : FMap α → FMap α
  | [] => []
  | (i, v) :: t => if f i v = d then merase (mmap d f t) i else (i, f i v) :: mmap d f t

/-- Every key below the bound `lo` is absent and the keys rise. -/
def risingFrom {α : Type} : Nat → FMap α → Prop
  | _, [] => True
  | lo, (i, _) :: t => lo ≤ i ∧ risingFrom (i + 1) t

/-- The canonical form of a map with default `d`: keys strictly rising and no entry equal to `d`. -/
def Canon {α : Type} (d : α) (m : FMap α) : Prop :=
  risingFrom 0 m ∧ ∀ p ∈ m, p.2 ≠ d

/-- The keys rise from `lo` on, as a Bool. -/
def rising {α : Type} : Nat → FMap α → Bool
  | _, [] => true
  | lo, (i, _) :: t => decide (lo ≤ i) && rising (i + 1) t

/-- Memory is in canonical form: addresses strictly rising, no listed byte 0 (entry 5). -/
def Memory.wf (m : Bytes) : Bool := rising 0 m && m.all (fun c => decide (c.2 ≠ 0))

/-- Apply a function to every listed key that `p` picks. -/
def mfilter {α : Type} (m : FMap α) (p : Nat → Bool) : FMap α := m.filter (fun e => p e.1)

/-- One byte; an unlisted byte reads 0 (entry 5). -/
def byteAt (m : Bytes) (a : Nat) : Byte := mget m 0 a

/-- Store one byte. -/
def setByte (m : Bytes) (a : Nat) (b : Byte) : Bytes := mset m 0 a b

/-- The `n` bytes from `a` up. -/
def readBytes (m : Bytes) (a n : Nat) : List Byte := (List.range n).map (fun i => byteAt m (a + i))

/-- Store bytes from `a` up. -/
def writeBytes : Bytes → Nat → List Byte → Bytes
  | m, _, [] => m
  | m, a, b :: bs => writeBytes (setByte m a b) (a + 1) bs

/-- Clear the `n` bytes from `a` up to 0. -/
def clearBytes (m : Bytes) (a n : Nat) : Bytes := mfilter m (fun k => decide (k < a ∨ a + n ≤ k))

/-- Copy `n` bytes of one memory into another (or the same one) at `b`. -/
def copyBytes (src : Bytes) (a : Nat) (dst : Bytes) (b n : Nat) : Bytes := writeBytes dst b (readBytes src a n)

/-- Little-endian value of bytes (R8). -/
def leNat : List Byte → Nat
  | [] => 0
  | b :: bs => b.toNat + 256 * leNat bs

/-- `n` bytes of a value, little-endian (R8). -/
def leBytes : Nat → Nat → List Byte
  | 0, _ => []
  | n + 1, v => BitVec.ofNat 8 v :: leBytes n (v / 256)

/-- A little-endian value of `n` bytes in memory. -/
def readLe (m : Bytes) (a n : Nat) : Nat := leNat (readBytes m a n)

/-- Store a little-endian value of `n` bytes. -/
def writeLe (m : Bytes) (a n v : Nat) : Bytes := writeBytes m a (leBytes n v)

/-- Field [hi:lo] of a value. -/
def bits (v hi lo : Nat) : Nat := v / 2 ^ lo % 2 ^ (hi + 1 - lo)

/-- A value with field [hi:lo] replaced. -/
def setBits (v hi lo x : Nat) : Nat :=
  v - bits v hi lo * 2 ^ lo + x % 2 ^ (hi + 1 - lo) * 2 ^ lo

/-- Bit n of a value. -/
def bit (v n : Nat) : Bool := v.testBit n

/-- 1 for true. -/
def b2n (b : Bool) : Nat := if b then 1 else 0

/-- A two's-complement value of `n` bits as an integer. -/
def toSigned (n v : Nat) : Int :=
  let u := v % 2 ^ n
  if u ≥ 2 ^ (n - 1) then (u : Int) - (2 ^ n : Nat) else u

/-- An integer as an `n`-bit two's-complement value. -/
def ofSigned (n : Nat) (i : Int) : Nat := (i % (2 ^ n : Nat)).toNat

/-- The XOR of the 16-bit halfwords of a value of `n` halfwords (R352). -/
def xorHalves : Nat → Nat → Nat
  | 0, _ => 0
  | n + 1, v => Nat.xor (v % 65536) (xorHalves n (v / 65536))

/-- One bit step of CRC-32C, reflected polynomial 0x82F63B78. -/
def crcBit (c : Nat) : Nat := if c % 2 = 1 then Nat.xor (c / 2) 0x82F63B78 else c / 2

/-- One byte step of CRC-32C. -/
def crcByte (c : Nat) (b : Byte) : Nat :=
  let x := Nat.xor c b.toNat
  crcBit (crcBit (crcBit (crcBit (crcBit (crcBit (crcBit (crcBit x)))))))

/-- CRC-32C of bytes: initial value and final XOR 0xFFFF_FFFF. -/
def crc32c (bs : List Byte) : Nat := Nat.xor (bs.foldl crcByte 0xFFFFFFFF) 0xFFFFFFFF

/-- The 32-bit words of an entry stored as `n` words from word `base` up, as one value. -/
def wordsAt (m : FMap Word) (base : Nat) : Nat → Nat
  | 0 => 0
  | n + 1 => (mget m 0 base).toNat + 2 ^ 32 * wordsAt m (base + 1) n

end Sys2Proof.Machine
end

