-- ==== Sys2Proof/Machine/Ops.lean ====
section
/-! DEFINITION. Machine/Ops.lean: the named operations over State that every family shares: reading and changing one
cluster, instance, ring or page; the page counters and error bits (R449–R460); the error log (R399, R400); the discard of a
hedge's tick (R50, R380); completion, event and MSI-X posting (R358–R362). -/

namespace Sys2Proof.Machine

/-! ### Components -/

def clusterAt (s : State) (c : Nat) : Cluster := mget s.clusters {} c
def setCluster (s : State) (c : Nat) (k : Cluster) : State := { s with clusters := mset s.clusters {} c k }
def modCluster (s : State) (c : Nat) (f : Cluster → Cluster) : State := setCluster s c (f (clusterAt s c))

def instAt (s : State) (i : Nat) : Inst := mget s.insts {} i
def setInst (s : State) (i : Nat) (x : Inst) : State := { s with insts := mset s.insts {} i x }
def modInst (s : State) (i : Nat) (f : Inst → Inst) : State := setInst s i (f (instAt s i))

def calAt (s : State) (c : Nat) : Cal := mget s.cals {} c
def setCal (s : State) (c : Nat) (x : Cal) : State := { s with cals := mset s.cals {} c x }
def modCal (s : State) (c : Nat) (f : Cal → Cal) : State := setCal s c (f (calAt s c))

def ringAt (s : State) (r : Nat) : Ring := mget s.rings {} r
def setRing (s : State) (r : Nat) (x : Ring) : State := { s with rings := mset s.rings {} r x }
def modRing (s : State) (r : Nat) (f : Ring → Ring) : State := setRing s r (f (ringAt s r))

def stackAt (s : State) (d : Nat) : Stack := mget s.hbm {} d
def modStack (s : State) (d : Nat) (f : Stack → Stack) : State := { s with hbm := mmod s.hbm {} d f }

def pciAt (s : State) (n : Nat) : Pci := mget s.pci {} n
def modPci (s : State) (n : Nat) (f : Pci → Pci) : State := { s with pci := mmod s.pci {} n f }

def ethAt (s : State) (n : Nat) : Eth := mget s.eth {} n
def modEth (s : State) (n : Nat) (f : Eth → Eth) : State := { s with eth := mmod s.eth {} n f }

def ktpAt (s : State) (n : Nat) : Ktp := mget s.ktp {} n
def modKtp (s : State) (n : Nat) (f : Ktp → Ktp) : State := { s with ktp := mmod s.ktp {} n f }

def snsAt (s : State) (n : Nat) : Sns := mget s.sns {} n
def modSns (s : State) (n : Nat) (f : Sns → Sns) : State := { s with sns := mmod s.sns {} n f }

def supAt (s : State) (n : Nat) : Sup := mget s.sup {} n
def modSup (s : State) (n : Nat) (f : Sup → Sup) : State := { s with sup := mmod s.sup {} n f }

def avsAt (s : State) (n : Nat) : Avs := mget s.avs {} n
def modAvs (s : State) (n : Nat) (f : Avs → Avs) : State := { s with avs := mmod s.avs {} n f }

def d2dAt (s : State) (m : Nat) : D2d := mget s.fabric.d2d {} m
def modD2d (s : State) (m : Nat) (f : D2d → D2d) : State :=
  { s with fabric := { s.fabric with d2d := mmod s.fabric.d2d {} m f } }

def modTck (s : State) (f : Tck → Tck) : State := { s with tck := f s.tck }
def modPwr (s : State) (f : Pwr → Pwr) : State := { s with pwr := f s.pwr }
def modGlb (s : State) (f : Glb → Glb) : State := { s with glb := f s.glb }
def modEnt (s : State) (f : Ent → Ent) : State := { s with ent := f s.ent }
def modThm (s : State) (f : Thm → Thm) : State := { s with thm := f s.thm }
def modTel (s : State) (f : Tel → Tel) : State := { s with tel := f s.tel }
def modPtp (s : State) (f : Ptp → Ptp) : State := { s with ptp := f s.ptp }
def modAvsDev (s : State) (f : AvsDev → AvsDev) : State := { s with avsDev := f s.avsDev }
def modCalCtl (s : State) (f : CalCtl → CalCtl) : State := { s with calCtl := f s.calCtl }

/-- The repair record of the flash takes every repair (19_startup.md, Terms): a failed physical column, a bad lane, a stitch
group, a retired pseudo-channel. -/
def recordColumn (s : State) (d row p : Nat) : State :=
  modGlb s fun g => { g with repairRec := if g.repairRec.contains (d * 72 + row * 9 + p) then g.repairRec
                                           else g.repairRec ++ [d * 72 + row * 9 + p] }
def recordLane (s : State) (m lane : Nat) : State :=
  modGlb s fun g => { g with repairLanes := mmod g.repairLanes 0 m (· ||| (1 <<< lane)) }
def recordStitch (s : State) (key : Nat) : State :=
  modGlb s fun g => { g with repairStitch := mset g.repairStitch false key true }
def recordPc (s : State) (d p : Nat) : State :=
  modGlb s fun g => { g with repairPcs := mmod g.repairPcs 0 d (· ||| (1 <<< p)) }

/-- Apply a state change for each key of a list, in order. -/
def forEach {α : Type} (l : List α) (f : State → α → State) (s : State) : State := l.foldl f s

/-- Something leaves the device (entry 7). -/
def emit (s : State) (o : Output) : State := { s with out := s.out ++ [o] }

/-- Take a free word (entry 6). -/
def freshWord (s : State) : Word × State := (Config.freeWord s.fresh, { s with fresh := s.fresh + 1 })

/-- Take `n` free words (entry 6). -/
def freshWords (s : State) (n : Nat) : List Word × State :=
  ((List.range n).map (fun i => Config.freeWord (s.fresh + i)), { s with fresh := s.fresh + n })

/-- Advance the counter of free values. -/
def burn (s : State) (n : Nat) : State := { s with fresh := s.fresh + n }

/-! ### Sprigs and contexts of a cluster -/

def sprigAt (k : Cluster) (p : Nat) : Sprig := mget k.sprigs {} p
def setSprig (k : Cluster) (p : Nat) (x : Sprig) : Cluster := { k with sprigs := mset k.sprigs {} p x }
def modSprig (k : Cluster) (p : Nat) (f : Sprig → Sprig) : Cluster := setSprig k p (f (sprigAt k p))

/-- A context of a sprig. -/
def ctxAt (x : Sprig) (i : Fin 4) : Ctx :=
  match i with | 0 => x.c0 | 1 => x.c1 | 2 => x.c2 | 3 => x.c3

def setCtx (x : Sprig) (i : Fin 4) (v : Ctx) : Sprig :=
  match i with
  | 0 => { x with c0 := v } | 1 => { x with c1 := v } | 2 => { x with c2 := v } | 3 => { x with c3 := v }

def modCtx (x : Sprig) (i : Fin 4) (f : Ctx → Ctx) : Sprig := setCtx x i (f (ctxAt x i))

/-- A queue of a context, N E S W U in the order of the QSET and PUSH codes (R170). -/
def queueAt (x : Ctx) (q : Nat) : Queue :=
  match q with | 0 => x.qN | 1 => x.qE | 2 => x.qS | 3 => x.qW | _ => x.qU

def setQueue (x : Ctx) (q : Nat) (v : Queue) : Ctx :=
  match q with
  | 0 => { x with qN := v } | 1 => { x with qE := v } | 2 => { x with qS := v } | 3 => { x with qW := v }
  | _ => { x with qU := v }

/-! ### Geometry (R14, R60, R62) -/

/-- The compute die that holds a cluster (R14). -/
def dieOf (c : Nat) : Nat := c / 32 / 8 * 4 + c % 32 / 8

/-- The cluster lies in the east half of its die (R14). -/
def eastHalf (c : Nat) : Bool := decide (4 ≤ c % 32 % 8)

/-- The slices' die half of a cluster, die × 2 + half. -/
def halfOf (c : Nat) : Nat := dieOf c * 2 + b2n (eastHalf c)

/-- A cluster lies in the rectangle (R60). -/
def inRect (x0 y0 w h c : Nat) : Bool :=
  decide (x0 ≤ c % 32 ∧ c % 32 < x0 + w ∧ y0 ≤ c / 32 ∧ c / 32 < y0 + h)

def inHedge (i : Inst) (c : Nat) : Bool := inRect i.x0 i.y0 i.w i.h c

/-- The cluster id of a hedge-local id (R62, R473). -/
def globalId (i : Inst) (l : Nat) : Nat := (i.y0 + l / i.w) * 32 + i.x0 + l % i.w

/-- The hedge-local id of a cluster (R62). -/
def localId (i : Inst) (c : Nat) : Nat := (c / 32 - i.y0) * i.w + (c % 32 - i.x0)

/-- The clusters of a rectangle in hedge-local order. -/
def rectClusters (x0 y0 w h : Nat) : List Nat :=
  (List.range (w * h)).map (fun l => (y0 + l / w) * 32 + x0 + l % w)

def clustersOf (i : Inst) : List Nat := rectClusters i.x0 i.y0 i.w i.h

/-- The lead cluster of a hedge: hedge-local id 0. -/
def leadOf (i : Inst) : Nat := i.y0 * 32 + i.x0

/-- The instance that owns a cluster, 0 when free. -/
def ownerOf (s : State) (c : Nat) : Nat := (clusterAt s c).owner

/-- The compute dies a hedge covers. -/
def diesOf (i : Inst) : List Nat := (List.range 8).filter (fun d => (clustersOf i).any (fun c => decide (dieOf c = d)))

/-- The instances 1–64. -/
def instIds : List Nat := (List.range 64).map (· + 1)

/-- FCLK in kHz × 10⁻³ of a grade: 1250, 1100, 950 and 800 MHz. -/
def gradeMHz (g : Nat) : Nat := match g with | 0 => 1250 | 1 => 1100 | 2 => 950 | _ => 800

/-- ⌈ns × f⌉ cycles at a grade. -/
def nsToCycles (ns g : Nat) : Nat := (ns * gradeMHz g + 999) / 1000

/-! ### Pages: addresses ÷ 4 KiB in the PF's BAR0 (R467–R471) -/

def pgHdg (i : Nat) : Nat := 0x100 + (i - 1)
def pgRng (r : Nat) : Nat := 0x200 + r
def pgPort (n p : Nat) : Nat := 0x300 + n * 0x40 + p
def pgDie (d p : Nat) : Nat := 0x400 + d * 0x40 + p
def pgClu (c p : Nat) : Nat := 0x800 + c * 8 + p
def pgHbcI (i : Nat) : Nat := 63 + i
def pgKtpI (i : Nat) : Nat := 127 + i
def pgPwrI (i : Nat) : Nat := 191 + i
/-- The ENT page. -/
def pgEnt : Nat := 4

/-- The die and the side of an edge's pages: edges 0–9 of R72 lie on the west or north die's pages. -/
def edgeDie (e : Nat) : Nat := match e with
  | 0 => 0 | 1 => 1 | 2 => 2 | 3 => 4 | 4 => 5 | 5 => 6 | 6 => 0 | 7 => 1 | 8 => 2 | _ => 3

/-- An edge runs north to south (6–9). -/
def edgeSouth (e : Nat) : Bool := decide (6 ≤ e)

/-- The page of a die-link module, edge × 4 + module (R469, R470). -/
def pgD2d (m : Nat) : Nat :=
  let e := m / 4
  if e < 10 then pgDie (edgeDie e) ((if edgeSouth e then 12 else 8) + m % 4)
  else pgPort (e - 10) (9 + m % 4)

/-- Class and unit of a calendar (R72). -/
def calClass (c : Nat) : Nat :=
  if c < 8 then 1 else if c < 24 then 2 else if c < 84 then 3 else if c < 88 then 4 else if c < 92 then 5
  else if c < 96 then 6 else 7

def calUnit (c : Nat) : Nat :=
  if c < 8 then c else if c < 24 then c - 8 else if c < 84 then c - 24 else if c < 88 then c - 84
  else if c < 92 then c - 88 else if c < 96 then c - 92 else 0

def calFirst (cls : Nat) : Nat := match cls with
  | 1 => 0 | 2 => 8 | 3 => 24 | 4 => 84 | 5 => 88 | 6 => 92 | _ => 96

/-- The page of a calendar (R469, R470). -/
def pgCal (c : Nat) : Nat :=
  let u := calUnit c
  match calClass c with
  | 1 => pgDie u 4
  | 2 => pgDie (u / 2) (5 + u % 2)
  | 3 => pgDie (edgeDie (u / 6)) ((if edgeSouth (u / 6) then 22 else 16) + u % 6)
  | 4 => pgPort u 13
  | 5 => pgPort (u / 2) (15 + u % 2)
  | 6 => pgPort u 14
  | _ => pgPort 0 17

def hdrAt (s : State) (pg : Nat) : PgHdr := mget s.pgs {} pg
def modHdr (s : State) (pg : Nat) (f : PgHdr → PgHdr) : State := { s with pgs := mmod s.pgs {} pg f }

/-- PG_TICK takes the device tick at an update of the page (R449). -/
def touch (s : State) (pg : Nat) : State := modHdr s pg (fun h => { h with tick := s.tck.devTick.setWidth 32 })

/-- A page of a cluster: its generic counters hold tick-end values (R451 TICKCNT). -/
def isClusterPg (pg : Nat) : Bool := decide (0x800 ≤ pg)

/-- TICKCNT of a page (R451): the cluster pages and TEL. -/
def tickCnt (pg : Nat) : Bool := isClusterPg pg || pg == 7

/-- PG_CNTn of a header. -/
def cntAt (h : PgHdr) (n : Nat) : Word :=
  match n with | 0 => h.cnt0 | 1 => h.cnt1 | 2 => h.cnt2 | 3 => h.cnt3 | 4 => h.cnt4 | _ => h.cnt5

def setCnt (h : PgHdr) (n : Nat) (v : Word) : PgHdr :=
  match n with
  | 0 => { h with cnt0 := v } | 1 => { h with cnt1 := v } | 2 => { h with cnt2 := v }
  | 3 => { h with cnt3 := v } | 4 => { h with cnt4 := v } | _ => { h with cnt5 := v }

/-- Count `k` events in cumulative counter PG_CNTn, which FREEZE stops (R452) and which wraps (R460). -/
def bumpBy (s : State) (pg n k : Nat) : State :=
  modHdr s pg (fun h =>
    let h' := { h with tick := s.tck.devTick.setWidth 32 }
    if h.freeze && !(tickCnt pg) then h' else setCnt h' n (cntAt h n + BitVec.ofNat 32 k))

def bump (s : State) (pg n : Nat) : State := bumpBy s pg n 1

/-- The PCI page of the serving link (R342). -/
def pgLink (s : State) : Nat := pgPort (if s.failedOver then 1 else 0) 1

/-- Count TLPs on the serving PCIe link (PCI page): 0 received, 1 sent (entry 25). -/
def tlps (s : State) (dir k : Nat) : State := bumpBy s (pgLink s) dir k

/-- Set PG_ERR bit n of a page (R454). -/
def pgErr (s : State) (pg n : Nat) : State :=
  modHdr s pg (fun h => { h with err := h.err ||| (1 <<< n), tick := s.tck.devTick.setWidth 32 })

/-- The page is locked (R457). -/
def locked (s : State) (pg : Nat) : Bool := (hdrAt s pg).lock

/-- Bracket a publication of tick-end values: PG_SEQ takes two steps and ends even (R458). -/
def publishHdr (s : State) (pg : Nat) : State :=
  modHdr s pg (fun h => { h with seq := h.seq + 2, tick := s.tck.devTick.setWidth 32 })

/-! ### Pins of the field connector (R426, R429) -/

/-- The driver of a line of PWR_FLD is on: one on a line that is SHORT or FOREIGN is released until its retry (R426). -/
def driverOn (s : State) (line : Nat) : Bool := !(mget s.pwr.driverOff false line)

/-- The device drives a pin. -/
def drivePin (s : State) (line : Nat) (name : String) (level : Bool) : State :=
  if driverOn s line then emit s (.pin name level) else s

/-- FAULT# is low while a hedge is HELD or the device is in a save (R429). -/
def faultPin (s : State) : Bool := !(s.insts.any (fun p => p.2.st == .held) || (s.pwr.saving && s.pwr.on))

/-- SAFE# is low from t0 until the module is off. -/
def safePin (s : State) : Bool := !(s.pwr.saving && s.pwr.on)

/-- PWR_GOOD is high from start-up until the save header is written. -/
def pwrGoodPin (s : State) : Bool := s.pwr.on

/-- One status pin follows a change of what it shows. -/
def pinSync1 (line : Nat) (name : String) (was now : Bool) (s : State) : State :=
  if now = was then s else drivePin s line name now

/-- The status pins follow the state (R429). -/
def pinSync (before s : State) : State :=
  pinSync1 13 "PWR_GOOD" (pwrGoodPin before) (pwrGoodPin s)
    (pinSync1 12 "SAFE#" (safePin before) (safePin s) (pinSync1 11 "FAULT#" (faultPin before) (faultPin s) s))

/-! ### The error log (R399) -/

def sevCode (v : Sev) : Nat := match v with | .note => 0 | .absorb => 1 | .replay => 2 | .hold => 3 | .safe => 4

/-- The 32 bytes of an error log entry (R399). -/
def errBytes (e : ErrEntry) : List Byte :=
  leBytes 8 e.devTick.toNat ++ leBytes 4 e.offsetNs.toNat ++ [BitVec.ofNat 8 (sevCode e.sev), e.srcType] ++
    leBytes 2 e.srcInst.toNat ++ leBytes 2 e.code.toNat ++ leBytes 1 e.inst ++
    leBytes 1 (b2n e.lostBefore + 2 * b2n e.injected + 4 * b2n e.mirrored) ++ leBytes 4 e.seq.toNat ++ leBytes 8 e.detail.toNat

/-- The supervisor whose role is standby can take the copy of an entry (R391). -/
def standbyLive (s : State) : Bool := !s.tck.masterP1 && !(supAt s 1).failed

/-- The severities, types and sources of a log entry. -/
structure Report where
  sev : Sev
  srcType : Nat
  srcInst : Nat
  code : Nat
  inst : Nat
  detail : Nat
  injected : Bool := false

/-- Write one entry of the error log (R379, R399): the ring holds 2,048; when it is full the oldest is overwritten, LOST
counts it and the new entry carries LOSTBEFORE. OFFSET_NS is a free value (entry 8). An entry of severity HOLD or SAFE asserts
SMB_ALERT# (R429). -/
def logErr (s : State) (r : Report) : State :=
  let full := decide (s.errs.count = 2048)
  let e : ErrEntry :=
    { devTick := s.tck.devTick, offsetNs := Config.freeWord s.fresh, sev := r.sev, srcType := BitVec.ofNat 8 r.srcType,
      srcInst := BitVec.ofNat 12 r.srcInst, code := BitVec.ofNat 16 r.code, inst := r.inst, lostBefore := full,
      injected := r.injected, mirrored := standbyLive s, seq := s.errs.seq + 1, detail := BitVec.ofNat 64 r.detail }
  let s1 : State :=
    { s with
      fresh := s.fresh + 1
      out := if (r.sev = .hold ∨ r.sev = .safe) ∧ driverOn s 8 then s.out ++ [.smbAlert] else s.out
      errs := { s.errs with
        log := minsert s.errs.log s.errs.head e
        head := (s.errs.head + 1) % 2048
        tail := if full then (s.errs.tail + 1) % 2048 else s.errs.tail
        count := if full then 2048 else s.errs.count + 1
        seq := s.errs.seq + 1
        lost := if full then s.errs.lost + 1 else s.errs.lost } }
  let s2 := bump s1 6 (sevCode r.sev)
  if r.injected then bump s2 6 5 else s2

/-- A NOTE whose PG_ERR bit is masked writes no log entry and posts no event (R400, R455). -/
def logNote (s : State) (pg n : Nat) (r : Report) : State :=
  if (hdrAt s pg).errMsk.getLsbD n then s else logErr s r

/-- DETAIL of a cluster code: the cluster id in [15:0] and the physical column in [19:16] (R399). -/
def clusterDetail (c pcol : Nat) : Nat := c % 65536 + pcol % 16 * 65536

/-! ### Physical columns (R116) -/

/-- The failed column of a die row, 15 for none. -/
def repEntry (s : State) (die row : Nat) : Nat := mget s.fabric.repMap 15 (die * 8 + row)

/-- The physical column of a cluster (R116). -/
def pcol (s : State) (c : Nat) : Nat :=
  let x := c % 8
  let f := repEntry s (dieOf c) (c / 32 % 8)
  if f ≤ 7 ∧ f ≤ x then x + 1 else x

/-! ### Discarding a tick (R50, R51, R380) -/

/-- The tick in progress of this instance has been discarded: a mark set after its commit belongs to the next tick (R51). -/
def discarded (i : Inst) : Bool := !i.committed && (i.dFault || i.dMissed || i.dDiverged)

/-- The clusters of a hedge stop (R380). -/
def stopClusters (s : State) (id : Nat) : State :=
  (clustersOf (instAt s id)).foldl (fun t c => modCluster t c (fun k => { k with stopped := true })) s

/-- A fault of severity REPLAY attributed to instance `id` (R50, R51, R380). After the hedge's commit the fault belongs to
the next tick: the mark stays for the boundary. -/
def replayFault (s : State) (id : Nat) : State :=
  let i := instAt s id
  if i.st = .running then
    if i.committed then setInst s id { i with dFault := true }
    else if discarded i then s
    else stopClusters (setInst s id { i with dFault := true }) id
  else s

/-- Plan divergence (R50, R376). After the hedge's commit it belongs to the next tick (R51). -/
def divergeFault (s : State) (id : Nat) : State :=
  let i := instAt s id
  if i.st = .running then
    if i.committed then setInst s id { i with dDiverged := true }
    else if discarded i then s
    else stopClusters (setInst s id { i with dDiverged := true }) id
  else s

/-- The hedge goes HELD at the next boundary with this event cause; the tick in progress runs on (R44, R342, R386). -/
def holdAtBoundary (s : State) (id cause : Nat) : State :=
  modInst s id (fun i => if i.st = .running ∨ i.st = .topiary then { i with holdNext := some cause } else i)

/-- A fault of severity HOLD: the hedge goes HELD at the next boundary with this event cause (R12, R361), and a tick in
progress that has not committed is discarded. -/
def holdFault (s : State) (id cause : Nat) : State :=
  holdAtBoundary (replayFault s id) id cause

/-! ### Completion entries, events and MSI-X (R358–R362) -/

/-- The size of a ring (R346). -/
def ringSize (r : Ring) : Nat := 2 ^ r.log2

/-- Entries between two indexes of a ring (R347). -/
def ringDist (r : Ring) (a b : Nat) : Nat := (b + ringSize r - a) % ringSize r

/-- Entries of a completion ring that no entry occupies (R347: it holds at most size − 1). -/
def cqFree (r : Ring) : Nat := ringSize r - 1 - ringDist r r.head r.tail

/-- The completion entry as the device writes it (R358). -/
def cqBytes (phase : Bool) (e : CqEntry) : List Byte :=
  leBytes 4 e.cookie.toNat ++ [e.typ, e.status] ++ leBytes 2 e.sqHead.toNat ++ [e.sqId, if phase then 1 else 0] ++
    leBytes 2 0 ++ leBytes 4 e.result.toNat ++ leBytes 8 e.devTick.toNat ++ leBytes 4 e.lag.toNat ++
    leBytes 4 e.offsetNs.toNat

/-- Send the MSI-X message of a completion ring (R362). -/
def sendMsix (s : State) (cq : Nat) : State :=
  bump (tlps (emit s (.msix (ringAt s cq).owner (ringAt s cq).vector)) 1 1) (pgRng cq) 5

/-- Post one entry on a completion ring with one PCIe write, then its MSI-X message (R294, R358, R359, R362). -/
def postEntry (s : State) (cq : Nat) (e : CqEntry) : State :=
  let r := ringAt s cq
  let s1 := tlps (emit s (.hostWrite (r.base.toNat + 32 * r.tail) (cqBytes r.phase e))) 1 1
  let t' := (r.tail + 1) % ringSize r
  let s2 := setRing s1 cq
    { r with tail := t', phase := (if t' = 0 then !r.phase else r.phase), irqDue := r.irqDue || (e.irq && r.irqMode) }
  let s3 := bump s2 (pgRng cq) 1
  if e.irq && !r.irqMode then sendMsix s3 cq else s3

/-- The tick stamp fields of an entry for instance `id` (R49): the lag, and OFFSET_NS, a free value (entry 8). -/
def stampLag (s : State) (id : Nat) : Word := if id = 0 then 0 else (instAt s id).lag

/-- The lowest-numbered completion ring that an owner has (R361). -/
def eventRing (s : State) (owner : Nat) : Option Nat :=
  (s.rings.find? (fun p => p.2.kind && p.2.enable && p.2.owner == owner)).map (·.1)

/-- Entries that descriptors accepted on submit rings paired with completion ring `cq` still have to post (R350). -/
def cqReserved (s : State) (cq : Nat) : Nat :=
  (s.rings.map (fun p => if !p.2.kind && p.2.cq == cq then p.2.slots.length else 0)).sum

/-- Event entries held for a completion ring (R360). -/
def cqHeld (s : State) (cq : Nat) : Nat :=
  (s.insts.map (fun p => (p.2.heldEntries.filter (fun e => e.1 == cq)).length)).sum

/-- The event entry of R361. -/
def eventEntry (s : State) (id code cause : Nat) (mgmt : Bool) : CqEntry :=
  { cookie := 0, typ := 0xFF, status := 0, sqHead := 0, sqId := 0,
    result := BitVec.ofNat 32 (code + cause % 256 * 256 + if mgmt then id * 65536 else 0),
    devTick := s.tck.devTick, lag := stampLag s id, offsetNs := Config.freeWord s.fresh, irq := true }

/-- Post an event entry on one completion ring, or count it lost (R361). A RUNNING hedge's entries are held (R360). -/
def postEventOn (s : State) (cq id : Nat) (held : Bool) (e : CqEntry) : State :=
  if cqFree (ringAt s cq) ≤ cqReserved s cq + cqHeld s cq then bump s (pgRng cq) 3
  else if held then modInst s id (fun i => { i with heldEntries := i.heldEntries ++ [(cq, e)] })
  else postEntry s cq e

/-- Post event `code` with `cause` for instance `id` on its event ring and on management ring 1 (R361). -/
def postEvent (s : State) (id code cause : Nat) : State :=
  let s0 := burn s 1
  let s1 := match eventRing s id with
    | some cq => postEventOn s0 cq id (decide ((instAt s id).st = .running)) (eventEntry s id code cause false)
    | none => s0
  if (ringAt s 1).kind && (ringAt s 1).enable then postEventOn s1 1 id false (eventEntry s id code cause true) else s1

/-- Post the finished descriptors of a ring in ring order (R351). -/
def postRing : Nat → State → Nat → State
  | 0, s, _ => s
  | n + 1, s, r =>
    match (ringAt s r).slots with
    | d :: rest =>
      match d.entry with
      | some e => postRing n (postEntry (modRing s r (fun x => { x with slots := rest })) (ringAt s r).cq e) r
      | none => s
    | [] => s

/-- Post what a list of rings has finished, those of an owner alone. -/
def postRings (owner : Nat) (l : List Nat) (s : State) : State :=
  l.foldl (fun t r =>
    if (ringAt t r).owner = owner ∧ !(ringAt t r).kind then postRing (ringAt t r).slots.length t r else t) s

/-- Post a list of held entries, each with its completion ring (R360). -/
def postHeld (l : List (Nat × CqEntry)) (s : State) : State := l.foldl (fun t p => postEntry t p.1 p.2) s

/-- Post everything finished on the rings of an owner, then its held events (R360). -/
def postOwner (s : State) (owner : Nat) : State :=
  let s1 := postRings owner (s.rings.map (·.1)) s
  postHeld (instAt s1 owner).heldEntries (modInst s1 owner (fun i => { i with heldEntries := [] }))

/-- A descriptor of ring `r` with sequence number `seq` finishes with a status and a result (R351, R358): its entry is
made, and posted now unless its instance's hedge is RUNNING (R360). -/
def finishDesc (s : State) (r seq status result : Nat) : State :=
  let x := ringAt s r
  let fill (d : RingSlot) : RingSlot :=
    if d.seq = seq then
      { d with entry := some {
            cookie := (d.desc.extractLsb' 32 32), typ := d.desc.extractLsb' 0 8, status := BitVec.ofNat 8 status,
            sqHead := BitVec.ofNat 16 d.headAfter, sqId := BitVec.ofNat 8 r,
            result := BitVec.ofNat 32 result, devTick := s.tck.devTick, lag := stampLag s x.owner,
            offsetNs := Config.freeWord s.fresh, irq := d.desc.getLsbD 8 } }
    else d
  let s1 := burn (setRing s r { x with slots := x.slots.map fill }) 1
  let s2 := if status = 3 then bump s1 (pgRng r) 4 else s1
  if x.owner ≠ 0 ∧ (instAt s x.owner).st = .running then s2 else postRing x.slots.length s2 r

/-- A change of one thing that leaves the queue of waiting commands alone: the next state. -/
abbrev Result := Host.Outcome State Fault Refusal

end Sys2Proof.Machine
end

