-- ==== Sys2Proof/Machine/Tick.lean ====
section
/-! DEFINITION. Machine/Tick.lean: the tick unit's commands (02_tick.md): staged writes, START and STEP, the lock source,
the edges on TICK_IN, PPS_IN and the TRIG inputs, and the followers. The boundary itself is in Machine/Boundary.lean. -/

namespace Sys2Proof.Machine

/-- The TCK page. -/
def pgTck : Nat := 1

/-- What BAR0 may write on a page: nothing from a save trigger on (R477), nothing outside GLB and CFG before READY (R432),
and on a locked page nothing but PG_ERR bit 30 (R457). -/
def bar0Write (s : State) (pg : Nat) (f : State → State) : State :=
  if s.pwr.saving then s
  else if !s.glb.ready && pg != 0 && pg != 5 then s
  else if locked s pg then pgErr (tlps s 0 1) pg 30
  else touch (f (tlps s 0 1)) pg

/-- A hedge is RUNNING. -/
def anyRunning (s : State) : Bool := s.insts.any (fun p => p.2.st == .running)

/-- TCK_PERIOD is staged; the boundary decides it (R30). -/
def execTckPeriodWrite (v : Word) (s : State) : Result :=
  .next (bar0Write s pgTck fun t => modTck t fun k => { k with periodStaged := some (v.toNat % 2 ^ 17) })

/-- TCK_CFG is staged whole; the boundary decides it (R43). -/
def execTckCfgWrite (v : Word) (s : State) : Result :=
  .next (bar0Write s pgTck fun t => modTck t fun k => { k with cfgStaged := some (v &&& 0x3FF3) })

/-- The key of a register in the per-function maps of State (R462): function × 2^28 + BAR0 address. -/
def fnKey (f addr : Nat) : Nat := f * 2 ^ 28 + addr

/-- Write one half of a _LO/_HI pair from function `f` (R462): a _LO write is held; a _HI write joins what is held, or
changes the high half alone. `cur` is what the pair reads as, `low` the address of _LO, `put` sets the pair. -/
def pairWrite (s : State) (f low : Nat) (hi : Bool) (v : Word) (cur : Word64) (put : State → Word64 → State) : State :=
  if hi then
    let lo := (mget s.loHeld none (fnKey f low)).getD (cur.setWidth 32)
    put { s with loHeld := mset s.loHeld none (fnKey f low) none } (v ++ lo)
  else { s with loHeld := mset s.loHeld none (fnKey f low) (some v) }

/-- TCK_T0 as it reads (R491). -/
def t0Reads (k : Tck) : Word64 := k.t0Staged.getD k.t0

/-- A write to TCK_T0 is staged for the next boundary (R43). -/
def execTckT0Write (hi : Bool) (v : Word) (s : State) : Result :=
  .next (bar0Write s pgTck fun t =>
    pairWrite t 0 0x1058 hi v (t0Reads t.tck) fun u w => modTck u fun k => { k with t0Staged := some w })

/-- A write to TCK_INOFS is staged for the next boundary (R43). -/
def execTckInofsWrite (v : Word) (s : State) : Result :=
  .next (bar0Write s pgTck fun t => modTck t fun k => { k with inofsStaged := some v })

/-- The index of the first grid point TCK_T0 + N × P after a PTP time (R37). -/
def gridIndex (k : Tck) (ptpNs : Nat) : Nat :=
  if ptpNs < k.t0.toNat then 0 else (ptpNs - k.t0.toNat) / (k.period * 1000) + 1

/-- Start the tick unit (R37, R445): in PTP mode the counter takes the grid index at the first boundary, otherwise it
starts where it stands. A unit that runs is not started again. -/
def startTick (s : State) (ptpNs : Nat) : State :=
  if s.tck.running then s
  else modTck s fun k => { k with
    running := true
    nextIndex := some (if k.src = 1 then BitVec.ofNat 64 (gridIndex k ptpNs) else k.devTick) }

/-- TCK_CTL.START at a PTP time (R37). -/
def execStart (ptpNs : Nat) (s : State) : Result := .next (bar0Write s pgTck fun t => startTick t ptpNs)

/-- TCK_CTL.STEP at a PTP time (R40): ignored with PG_ERR bit 1 while a hedge is RUNNING. Only PTP gives a grid with an
index (entry 14). -/
def stepTick (s : State) (ptpNs : Nat) : State :=
  if anyRunning s then pgErr s pgTck 1
  else if s.tck.running ∧ s.tck.src = 1 then
    modTck s fun k => { k with stepPending := true, nextIndex := some (BitVec.ofNat 64 (gridIndex k ptpNs)) }
  else s

def execStep (ptpNs : Nat) (s : State) : Result := .next (bar0Write s pgTck fun t => stepTick t ptpNs)

/-- The lock source is lost (R42): holdover, LOCKED cleared, code 0x5001 logged. -/
def loseSource (s : State) : State :=
  logErr (modTck s fun k => { k with srcLost := true, holdover := true, locked := false, goodTicks := 0 })
    { sev := .note, srcType := 2, srcInst := 0, code := 0x5001, inst := 0, detail := 0 }

/-- A field line is OK: an input that is OPEN, SHORT or FOREIGN gives no edge (R426). -/
def lineOk (s : State) (n : Nat) : Bool := mget s.pwr.fld 0 n == 0

/-- The phase error that an edge `offsetNs` from the predicted boundary shows (R35): the boundary belongs at the edge time plus
TCK_INOFS. The first edge after START or STEP places the boundary itself (R445). -/
def edgeError (k : Tck) (offsetNs : Int) : Int :=
  if k.nextIndex.isSome then 0 else -(offsetNs + k.inofs.toInt)

/-- A rising edge on TICK_IN, `offsetNs` from the predicted boundary and `gapNs` after the last edge (R35, R41, R487). An edge
outside the window or too early is counted in PG_CNT0 and ignored; the first edge after START is accepted wherever it
falls (R445). An accepted edge marks a boundary, so it gives the phase error, and it ends a holdover that missing edges began. -/
def execTickInEdge (offsetNs : Int) (gapNs : Nat) (s : State) : Result :=
  .next <|
    if !(lineOk s 0) then s
    else if gapNs < 50000 then bump s pgTck 0
    else if s.tck.src ≠ 2 then s
    else if s.tck.nextIndex.isNone ∧ (offsetNs < -2000 ∨ 2000 < offsetNs) then bump s pgTck 0
    else modTck s fun k => { k with missed := 0, srcLost := false, holdover := false, phErr := edgeError k offsetNs }

/-- A predicted boundary passed with no accepted edge (R41): counted in PG_CNT1; the third in a row is a lost source. -/
def execTickInEdgeMissed (s : State) : Result :=
  .next <|
    if s.tck.src = 2 ∧ s.tck.running then
      let s1 := bump (modTck s fun k => { k with missed := k.missed + 1 }) pgTck 1
      if s1.tck.missed = 3 then loseSource s1 else s1
    else s

/-- A rising edge on PPS_IN (R35, R487): its PTP time goes to TCK_PPSTS; a pulse too narrow or too early is a stray. -/
def execPpsInEdge (ptpNs : Word64) (gapNs widthNs : Nat) (s : State) : Result :=
  .next <|
    if !(lineOk s 1) then s
    else if gapNs < 500000000 ∨ widthNs < 100 then bump s pgTck 0
    else touch (modTck s fun k => { k with pps := ptpNs }) pgTck

/-- TRIG n is an input: PWR_TRIG holds 1 in its two mode bits (PWR page). -/
def trigIsInput (s : State) (n : Fin 4) : Bool := (s.pwr.trig.toNat / 16 ^ n.val) % 4 = 1

/-- A rising edge on a TRIG input: its PTP time goes to PWR_TRIGTSn (R486). -/
def execTrigInputEdge (n : Fin 4) (ptpNs : Word64) (s : State) : Result :=
  .next <|
    if trigIsInput s n && lineOk s (2 + n.val) then
      touch (modPwr s fun p => { p with trigTs := mset p.trigTs 0 n.val (ptpNs.setWidth 32) }) 2
    else s

/-- Sixteen consecutive ticks within ±50 ns set LOCKED (R38). -/
def execLockAcquired (s : State) : Result :=
  .next <|
    if s.tck.running ∧ 16 ≤ s.tck.goodTicks ∧ ¬ s.tck.srcLost then
      touch (modTck s fun k => { k with locked := true }) pgTck
    else s

/-- The lock source is lost (R42); FREE has none to lose. -/
def execLockSourceLost (s : State) : Result :=
  .next (if s.tck.src = 0 ∨ s.tck.srcLost then s else loseSource s)

/-- The lock source returns: the device corrects its phase error from the next COPPICE on (R39, R42). -/
def execLockSourceReturn (phaseErr : Int) (s : State) : Result :=
  .next <|
    if s.tck.srcLost then
      touch (modTck s fun k => { k with srcLost := false, holdover := false, missed := 0, phErr := phaseErr }) pgTck
    else s

/-- A hedge covers a compute die. -/
def coversDie (i : Inst) (d : Nat) : Bool := (clustersOf i).any (fun c => decide (dieOf c = d))

/-- The instances that hold a rectangle with a cluster on die `d`. -/
def instsOnDie (s : State) (d : Nat) : List Nat := (s.insts.filter (fun p => coversDie p.2 d)).map (·.1)

/-- The thousandth tick without the master: every hedge covering the die goes HELD with cause 2 (R44, code 0x5006). -/
def execFollowerHoldoverLimit (d : Die) (s : State) : Result :=
  .next <|
    if 1000 ≤ mget s.tck.followerTicks 0 d.val then
      (instsOnDie s d.val).foldl (fun t i => holdAtBoundary t i 2)
        (logErr s { sev := .hold, srcType := 2, srcInst := 0, code := 0x5006, inst := 0, detail := d.val })
    else s

/-! ### What a boundary does to the tick unit -/

/-- A staged period is decided (R30): refused while a hedge is RUNNING (PG_ERR bit 0) or out of range (bit 2). -/
def decidePeriod (runB : Bool) (s : State) : State :=
  match s.tck.periodStaged with
  | none => s
  | some p =>
    let bad := p < 50 ∨ 100000 < p
    let s1 := modTck s fun k => { k with
      periodStaged := none, period := if runB ∨ bad then k.period else p }
    let s2 := if runB then pgErr s1 pgTck 0 else s1
    if bad then pgErr s2 pgTck 2 else s2

/-- A change of SRC, TCK_T0 or TCK_INOFS clears LOCKED at the boundary (R43). -/
def relock (k : Tck) : Tck := { k with locked := false, goodTicks := 0 }

/-- A staged TCK_CFG is applied, or refused whole with PG_ERR bit 2 for SRC 0b11 or SLEW_NS above 1,000 (R43). -/
def decideCfg (s : State) : State :=
  match s.tck.cfgStaged with
  | none => s
  | some w =>
    let src := w.extractLsb' 0 2
    let slew := (w.extractLsb' 4 10).toNat
    if src = 3 ∨ 1000 < slew then pgErr (modTck s fun k => { k with cfgStaged := none }) pgTck 2
    else modTck s fun k =>
      if src = k.src then { k with cfgStaged := none, slew := slew }
      else relock { k with cfgStaged := none, slew := slew, src := src, srcLost := false, holdover := false, missed := 0 }

/-- A staged TCK_T0 and TCK_INOFS apply (R43). -/
def decideT0 (s : State) : State :=
  modTck s fun k =>
    let k1 := match k.t0Staged with
      | none => k
      | some v => if v = k.t0 then { k with t0Staged := none } else relock { k with t0Staged := none, t0 := v }
    match k1.inofsStaged with
    | none => k1
    | some v => if v = k1.inofs then { k1 with inofsStaged := none } else relock { k1 with inofsStaged := none, inofs := v }

/-- The phase error of the tick that ended (R38): LOCKED goes when it exceeds ±200 ns or the source is lost. In FREE mode
and in holdover there is no error to correct (R42, R43). -/
def phaseSample (err : Int) (k : Tck) : Tck :=
  let e := if k.src = 0 ∨ k.srcLost then 0 else err
  { k with
    phErr := e
    goodTicks := if -50 ≤ e ∧ e ≤ 50 ∧ ¬ k.srcLost then k.goodTicks + 1 else 0
    locked := k.locked && decide (-200 ≤ e ∧ e ≤ 200) && !k.srcLost }

/-- The followers that did not get the master's boundary hold over (R44). -/
def followers (noMaster : BitVec 8) (k : Tck) : Tck :=
  { k with
    followerHold := noMaster
    followerTicks := (List.range 8).foldl (fun m d =>
      mset m 0 d (if noMaster.getLsbD d then mget m 0 d + 1 else 0)) k.followerTicks }

/-- The device tick counter at a boundary: +1, or the index that START or STEP set (R37, R40, R46). -/
def nextDevTick (k : Tck) : Word64 := k.nextIndex.getD (k.devTick + 1)

/-- A phase step shifts every hedge tick counter by what the device tick counter moves (R40, entry 14). -/
def shiftTicks (s : State) : State :=
  if s.tck.stepPending then
    { s with insts := mmap {} (fun _ i =>
        if i.st = .empty then i else { i with htick := i.htick + (nextDevTick s.tck - s.tck.devTick) }) s.insts }
  else s

/-- The device tick counter moves (R46). -/
def tickCount (s : State) : State :=
  modTck (shiftTicks s) fun k => { k with devTick := nextDevTick k, nextIndex := none, stepPending := false }

/-- The phase error sampled at a boundary (R35, R38): in TICK_IN mode what the edges showed, otherwise what the PTP clock
measures. -/
def boundaryError (k : Tck) (measured : Int) : Int := if k.src = 2 then k.phErr else measured

/-- The tick unit at a boundary: phase, staged fields, phase error, followers. -/
def tickUnit (runB : Bool) (i : BoundaryIn) (s : State) : State :=
  let s1 := modTck s fun k => { k with phase := .openP, slewing := false }
  let s2 := decideT0 (decideCfg (decidePeriod runB s1))
  let s3 := modTck s2 fun k => followers i.noMaster (phaseSample (boundaryError k i.phaseErr) k)
  let s4 := if s3.tck.holdover then bump s3 pgTck 2 else s3
  touch s4 pgTck

/-- TICK_OUT rises on boundaries whose counter is a multiple of M = DIV + 1, unless its driver is off (R45, R426). -/
def tickOut (s : State) : State :=
  if s.tck.outEn ∧ s.tck.devTick.toNat % (s.tck.outDiv.toNat + 1) = 0 ∧ driverOn s 16 then
    emit s .tickOut
  else s

/-- The nominal length of COPPICE in ns, and that of WORK (R28). -/
def coppiceNs (periodUs : Nat) : Nat := Nat.max 8000 ((periodUs * 1000 + 31) / 32)
def workNs (periodUs : Nat) : Nat := periodUs * 1000 - 1000 - coppiceNs periodUs - 4000

/-- The end of COPPICE ends its correction (R39): what it took of the phase error is gone. -/
def endCorrection (k : Tck) : Tck :=
  { k with slewing := false, phErr := if k.src = 2 then k.phErr + k.coppiceAdj else k.phErr }

/-- The change of length, at most SLEW_NS, with which a COPPICE corrects the present phase error (R39). -/
def slewStep (k : Tck) : Int :=
  let e := k.phErr
  let lim : Int := k.slew
  if e < -lim then lim else if lim < e then -lim else -e

/-- The correction of this tick's COPPICE: the one in force once it has begun, until then the one it would take (R39). -/
def tickCorrection (k : Tck) : Int :=
  if k.phase = .coppice ∨ k.phase = .commit then k.coppiceAdj else slewStep k

/-- The length of the tick in progress in ns (R28, R39). -/
def tickNs (k : Tck) : Nat := (k.period * 1000 + tickCorrection k).toNat

/-- The phase `ns` after the boundary (R28). -/
def phaseAt (k : Tck) (ns : Nat) : Phase :=
  if ns < 1000 then .openP
  else if ns < 1000 + workNs k.period then .work
  else if ns + 4000 < tickNs k then .coppice
  else .commit

/-- The tick unit gives the calendars their times: it runs, and a boundary has come since START (R73). -/
def timed (s : State) : Bool := s.tck.running && s.tck.nextIndex.isNone

/-- COPPICE takes at most SLEW_NS of the phase error (R39). -/
def coppiceCorrection (s : State) : State :=
  let a := slewStep s.tck
  let s1 := modTck s fun k => { k with coppiceAdj := a, slewing := decide (a ≠ 0) }
  if a ≠ 0 then bump s1 pgTck 3 else s1

/-- The tick unit drives the phases: it runs, and the module is on. -/
def ticking (s : State) : Bool := s.tck.running && s.pwr.on

end Sys2Proof.Machine
end

