-- ==== Sys2Proof/Machine/Calendars.lean ====
section
/-! DEFINITION. Machine/Calendars.lean: the 97 calendars (R71–R86, R490): tables and shadows, SWAP and its refusals, the
owner of a slot, borrowing, and the commands that write a calendar page. -/

namespace Sys2Proof.Machine

/-- Slot length in ns of a class (R72). -/
def slotNs (cls : Nat) : Nat := match cls with | 1 => 8 | 2 => 8 | 3 => 8 | 4 => 32 | 5 => 16 | _ => 32

/-- Management minimum of a class (R72). -/
def mgMin (cls : Nat) : Nat := match cls with | 1 => 0 | 2 => 32 | 3 => 0 | 4 => 32 | 5 => 64 | 6 => 0 | _ => 256

/-- The number of ones of a 64-bit value. -/
def ones64 (v : Word64) : Nat := ((List.range 64).filter (fun i => v.getLsbD i)).length

/-- The two dies of an edge 0–9, or the compute die of a port edge (R72; D2D page). -/
def edgeDies (e : Nat) : List Nat :=
  if e < 6 then [edgeDie e, edgeDie e + 1]
  else if e < 10 then [edgeDie e, edgeDie e + 4]
  else match e with | 10 => [0] | 11 => [4] | 12 => [3] | _ => [7]

/-- The calendars whose slots a module carries: class 3 of a mesh module, else the port spines of its dies (R128, R133). -/
def moduleCals (m : Nat) : List Nat :=
  let e := m / 4
  if e < 10 ∧ m % 4 < 3 then [calFirst 3 + e * 6 + m % 4 * 2, calFirst 3 + e * 6 + m % 4 * 2 + 1]
  else (edgeDies e).flatMap fun d => [calFirst 2 + d * 2, calFirst 2 + d * 2 + 1]

/-- The modules that carry a calendar's slots. -/
def calModules (cal : Nat) : List Nat := (List.range 56).filter fun m => (moduleCals m).contains cal

/-- A module of the calendar retrains or has a lane moved: its slots carry nothing (R131, R133). -/
def linkIdle (s : State) (cal : Nat) : Bool :=
  (calModules cal).any fun m => (d2dAt s m).retraining || (d2dAt s m).repairing

/-- Capacity of a full slot in bytes (R72). An HBM slot loses 256 B for each retired pseudo-channel (R83, R284), and a
degraded die-link module half of its lanes (R132). A class 7 slot is 32 PCLK cycles. -/
def slotCapacity (s : State) (cal : Nat) : Nat :=
  match calClass cal with
  | 1 => (64 - ones64 (stackAt s (calUnit cal)).retMap) * 256
  | 2 => if (calModules cal).any fun m => (d2dAt s m).degraded then 1024 else 2048
  | 3 => if (calModules cal).any fun m => (d2dAt s m).degraded then 1024 else 2048
  | 4 => 1600
  | 5 => 1024
  | 6 => 400
  | _ => 32

/-- What a slot that the boundary cuts to `ns` can carry: its share, in whole 64 B lines (R74). -/
def cutCapacity (full ns cap : Nat) : Nat := if full ≤ ns then cap else cap * ns / full / 64 * 64

/-- The owner code of a slot in a table (R71, R490: every slot resets unowned). -/
def ownerIn (t : FMap Nat) (slot : Nat) : Nat := mget t 0xFF slot

/-- When slot `n` of the tick starts, in ns after the boundary: the slots follow one another from slot 0 (R73). -/
def slotStart (cal n : Nat) : Nat := n * slotNs (calClass cal)

/-- The length in ns of slot `n` of the tick: the boundary ends the one in progress (R73). -/
def slotLen (s : State) (cal n : Nat) : Nat :=
  if timed s then Nat.min (slotNs (calClass cal)) (tickNs s.tck - slotStart cal n) else slotNs (calClass cal)

/-- The phase in which slot `n` of the tick starts; without a tick there is no COPPICE. -/
def slotPhase (s : State) (cal n : Nat) : Phase := if timed s then phaseAt s.tck (slotStart cal n) else .openP

/-- The owner of slot `n` of the tick: one of an HBM calendar that starts in COPPICE is management's when its index is even
(R57, R75), and from a save trigger on every slot is (R412). -/
def slotOwner (s : State) (cal n : Nat) : Nat :=
  if s.pwr.saving ∨ calClass cal = 1 ∧ slotPhase s cal n = .coppice ∧ n % 2 = 0 then 0
  else ownerIn (calAt s cal).table (n % 1024)

/-- A reserved owner code (R71). -/
def reservedCode (o : Nat) : Bool := decide (0x41 ≤ o ∧ o ≤ 0xFE)

/-- Slots whose code is not unowned, in either table. -/
def touchedSlots (k : Cal) : List Nat := (k.table.map (·.1)) ++ (k.shadow.map (·.1))

/-- A segment on stack `d` of the instance still waits to be zeroed (R114). -/
def zeroingOn (s : State) (id d : Nat) : Bool :=
  let i := instAt s id
  i.zeroing.any (fun e => decide (bits (mget i.segs 0 (e * 4 + 1)).toNat 19 16 = d))

/-- The instance is RUNNING at the boundary in the sense of R492: before or after the changes it applies. -/
def runningAtBoundary (before after : State) (id : Nat) : Bool :=
  (instAt before id).st == .running || (instAt after id).st == .running

/-- The three causes for which a SWAP is refused (R77): a slot of a RUNNING instance changes owner; a reserved code; a
slot of an instance that is still being zeroed goes away. -/
def swapRefusals (before s : State) (cal : Nat) : Bool × Bool × Bool :=
  let k := calAt s cal
  let diff := (touchedSlots k).filter (fun i => ownerIn k.table i != ownerIn k.shadow i)
  let isInst (o : Nat) : Bool := decide (1 ≤ o ∧ o ≤ 64)
  let run (o : Nat) : Bool := isInst o && runningAtBoundary before s o
  ( diff.any (fun i => run (ownerIn k.table i) || run (ownerIn k.shadow i)),
    k.shadow.any (fun p => reservedCode p.2),
    calClass cal == 1 && diff.any (fun i => isInst (ownerIn k.table i) && zeroingOn s (ownerIn k.table i) (calUnit cal)) )

/-- A SWAP that is due applies the shadow as it stands, or is refused with every PG_ERR bit whose cause holds (R76, R77). -/
def applySwap (before : State) (s : State) (cal : Nat) : State :=
  let k := calAt s cal
  if !k.pending then s
  else
    let (r0, r1, r2) := swapRefusals before s cal
    if r0 || r1 || r2 then
      let t := setCal s cal { k with pending := false }
      let t0 := if r0 then pgErr t (pgCal cal) 0 else t
      let t1 := if r1 then pgErr t0 (pgCal cal) 1 else t0
      if r2 then pgErr t1 (pgCal cal) 2 else t1
    else touch (setCal s cal { k with pending := false, table := k.shadow }) (pgCal cal)

/-- Every calendar restarts at slot 0, its borrow rotation starts over, and SWAPs that are due apply (R73, R79). -/
def restartCalendars (before : State) (s : State) : State :=
  let s1 : State := { s with cals := mmap {} (fun _ k => { k with slotIdx := 0, begun := 0, lastBorrow := 0, used := 0 }) s.cals }
  (s1.cals.map (·.1)).foldl (fun t c => applySwap before t c) s1

/-- A write to a calendar table goes to the shadow: slot 4w + b at byte b (R76). -/
def execCalTableWrite (cal : CalId) (w : Fin 256) (v : Word) (s : State) : Result :=
  .next (bar0Write s (pgCal cal.val) fun t => modCal t cal.val fun k =>
    { k with shadow := (List.range 4).foldl (fun m b =>
        mset m 0xFF (4 * w.val + b) (bits v.toNat (8 * b + 7) (8 * b))) k.shadow })

/-- CAL_CTL.SWAP waits for the boundary (R76, R77). -/
def execCalSwap (cal : CalId) (s : State) : Result :=
  .next (bar0Write s (pgCal cal.val) fun t => modCal t cal.val fun k => { k with pending := true })

/-- CAL_GCTL.MARGIN is staged (R84). -/
def execMarginWrite (v : Word) (s : State) : Result :=
  .next (bar0Write s 8 fun t => modCalCtl t fun k => { k with marginStaged := some (v.toNat % 256) })

/-- An instance holds a plan: LOADED, RUNNING, HELD or in TOPIARY (R84). -/
def holdsPlan (i : Inst) : Bool :=
  match i.st with | .loaded => true | .running => true | .held => true | .topiary => true | _ => false

/-- A staged margin applies when no instance held a plan before or holds one after the boundary's changes; otherwise
PG_ERR bit 0 of the control page (R84, R492). A margin that leaves a stack below its retirement limit clears
MARGIN_EXH (R284). -/
def decideMargin (before : State) (s : State) : State :=
  match s.calCtl.marginStaged with
  | none => s
  | some m =>
    let busy := before.insts.any (fun p => holdsPlan p.2) || s.insts.any (fun p => holdsPlan p.2)
    let s1 := modCalCtl s fun k => { k with marginStaged := none, margin := if busy then k.margin else m }
    if busy then pgErr s1 8 0 else touch s1 8

/-- The retirements a stack may absorb: min(4, ⌊64 × m⌋) (R284). -/
def retireLimit (s : State) : Nat := Nat.min 4 (64 * s.calCtl.margin / 256)

/-- Pseudo-channels that count toward the limit: marked, migrating and retired (R284). -/
def retireCount (k : Stack) : Nat := k.marked.length + (if k.migrating.isSome then 1 else 0) + ones64 k.retMap

/-- MARGIN_EXH clears at the first boundary at which the count is below the limit (R284). -/
def marginExhaustion (s : State) : State :=
  { s with hbm := mmap {} (fun _ k =>
      if retireCount k < retireLimit s then { k with marginExh := false } else k) s.hbm }

/-- Slots that an owner has in a table. -/
def ownedSlots (t : FMap Nat) (id : Nat) : Nat := (t.filter (fun p => p.2 == id)).length

/-- Slots owned by instances, or by instance codes at all, in a table (R82). -/
def instSlots (t : FMap Nat) : Nat := (t.filter (fun p => decide (1 ≤ p.2 ∧ p.2 ≤ 64))).length

/-- The first calendar that fails R82, by class and unit, looking at each calendar's table through `tab`. -/
def admitCalendars (s : State) (tab : Nat → Cal → FMap Nat) : Option Nat :=
  (s.cals.find? (fun p => decide (1024 < mgMin (calClass p.1) + instSlots (tab p.1 p.2)))).map (·.1)

/-- PWRSUM: the sum of the admitted budgets (R85). -/
def pwrSum (s : State) : Nat := (s.insts.map (fun p => p.2.budget)).sum

/-! ### A slot -/

/-- A transfer waits for slots of a calendar (R74). -/
def enqueue (s : State) (cal : Nat) (it : CalItem) : State := modCal s cal fun k => { k with queue := k.queue ++ [it] }

/-- The first transfer of an owner that waits on a calendar. -/
def firstOf (k : Cal) (owner : Nat) : Option CalItem := k.queue.find? (fun it => it.owner == owner)

/-- The first unplanned transfer of an owner (R80). -/
def firstUnplanned (k : Cal) (owner : Nat) : Option CalItem :=
  k.queue.find? (fun it => it.owner == owner && !it.planned)

/-- Replace the first waiting entry equal to `it`. -/
def replaceItem (it : CalItem) (new : Option CalItem) : List CalItem → List CalItem
  | [] => []
  | a :: l => if a = it then (match new with | some b => b :: l | none => l) else a :: replaceItem it new l

/-- `n` bytes of a waiting transfer have moved: it leaves the queue when nothing is left. -/
def consume (k : Cal) (it : CalItem) (n : Nat) : Cal :=
  { k with queue := replaceItem it (if it.left ≤ n then none else some { it with left := it.left - n }) k.queue }

/-- Instances in the borrow pool that could borrow: pool members with an unplanned transfer ready (R79, R80). A resetting
or dormant instance never borrows (R104, R112). -/
def borrowers (s : State) (cal owner : Nat) : List Nat :=
  instIds.filter fun i =>
    let x := instAt s i
    x.borrow && x.st != .resetting && x.st != .topiary && i != owner && (firstUnplanned (calAt s cal) i).isSome

/-- The next pool member in rotation by ascending id, after the one that last borrowed here (R79). -/
def nextBorrower (s : State) (cal owner : Nat) : Option Nat :=
  let l := borrowers s cal owner
  match l.find? (fun i => decide ((calAt s cal).lastBorrow < i)) with
  | some i => some i
  | none => l.head?

/-- The slot is lent (R79): it is unowned, or its owner is a pool member with no transfer ready. An instance in RESETTING
or TOPIARY lends nothing: its slots idle (R104, R112). -/
def lendable (s : State) (owner : Nat) : Bool :=
  owner == 0xFF ||
    (decide (1 ≤ owner ∧ owner ≤ 64) && (instAt s owner).borrow && (instAt s owner).st != .resetting &&
      (instAt s owner).st != .topiary)

/-- Who issues in a slot, and whether it is borrowed: the owner when it has a transfer ready, management in an unowned slot
(R490), else a borrower (R79). The slots of a dormant instance idle (R104). -/
def slotUser (s : State) (cal n : Nat) : Option (CalItem × Bool) :=
  let k := calAt s cal
  let o := slotOwner s cal n
  let own := if o = 0 ∨ o = 0xFF then firstOf k 0
    else if (instAt s o).st = .topiary then none else firstOf k o
  match own with
  | some it => some (it, false)
  | none =>
    if lendable s o then
      match nextBorrower s cal o with
      | some b => (firstUnplanned k b).map (fun it => (it, true))
      | none => none
    else none

/-- Every slot of the owner idles: its tick in progress is discarded (R380), or it is in topiary (R104). -/
def ownerIdles (s : State) (o : Nat) : Bool :=
  decide (1 ≤ o ∧ o ≤ 64) &&
    let i := instAt s o
    (i.st == .topiary || (i.st == .running && discarded i))

/-- The run of the owner of slot `n` ends with it: the next slot has another owner, or the boundary comes (R74). -/
def runEnds (s : State) (cal n : Nat) : Bool :=
  (timed s && decide (tickNs s.tck ≤ slotStart cal (n + 1))) || slotOwner s cal n != slotOwner s cal (n + 1)

/-- The wire time in ns from the start of slot `n` to the end of its owner's run, `k` slots looked at (R74, R302). -/
def runNs (s : State) (cal n : Nat) : Nat → Nat
  | 0 => 0
  | k + 1 => if runEnds s cal n then slotLen s cal n else slotLen s cal n + runNs s cal (n + 1) k

end Sys2Proof.Machine
end

