-- ==== Sys2Proof/Machine/Memory.lean ====
section
/-! DEFINITION. Machine/Memory.lean: HBM, slices and generations (11_memory.md): device physical memory and poison, the
segment table and windows, carried state and its mirror, uncorrectable errors by location, patrol and retirement. -/

namespace Sys2Proof.Machine

/-! ### Device physical memory (R257) -/

/-- 2 MiB: a frame, a slice, the unit of segments and windows. -/
def unit2M : Nat := 0x200000

/-- The device physical address of a slice (R257). -/
def sliceBase (x : Nat) : Nat := 0x0080_0000_0000 + x * unit2M

/-- The device physical address of a frame of stack `d` (R257). -/
def frameBase (d f : Nat) : Nat := d * 0x10_0000_0000 + f * unit2M

/-- An address lies in HBM rather than in a slice. -/
def isHbm (dpa : Nat) : Bool := decide (dpa < 0x0080_0000_0000)

/-- The stack of an HBM address, and its pseudo-channel: bits [13:8] of its address within the stack (R257). -/
def stackOf (dpa : Nat) : Nat := dpa / 0x10_0000_0000
def pcOf (dpa : Nat) : Nat := dpa / 256 % 64

/-- The die that a slice belongs to: index = die × 32 + half × 16 + k (HDG page). -/
def sliceIndexOf (dpa : Nat) : Nat := (dpa - 0x0080_0000_0000) / unit2M

/-- The lines that `n` bytes from `a` cover whole: a whole-line write replaces a poisoned line (R281). -/
def wholeLines (a n : Nat) : List Nat :=
  (List.range ((a + n) / 64 - (a + 63) / 64)).map (fun k => (a + 63) / 64 + k)

/-- An address of the pseudo-channel that stack `d` migrates. -/
def migrates (k : Stack) (d a : Nat) : Bool := isHbm a && decide (stackOf a = d) && k.migrating == some (pcOf a)

/-- Writes to a pseudo-channel that migrates are written to the redirect location too, and counted by granule (R283). -/
def dualWrite (s : State) (dpa : Nat) (bs : List Byte) : State :=
  if isHbm dpa ∧ bs ≠ [] then
    let d := stackOf dpa
    let n := ((List.range ((dpa + bs.length - 1) / 256 + 1 - dpa / 256)).filter
      (fun j => migrates (stackAt s d) d ((dpa / 256 + j) * 256))).length
    if n = 0 then s
    else
      bumpBy (modStack s d fun k => { k with
        redirect := ((List.range bs.length).zip bs).foldl (fun m p =>
          if migrates k d (dpa + p.1) then setByte m (dpa + p.1) p.2 else m) k.redirect
        redirectBad := (wholeLines dpa bs.length).foldl merase k.redirectBad }) (pgDie d 2) 4 n
  else s

/-- Write bytes at a device physical address. -/
def memWrite (s : State) (dpa : Nat) (bs : List Byte) : State :=
  dualWrite
    { s with
      mem := writeBytes s.mem dpa bs
      poison := (wholeLines dpa bs.length).foldl merase s.poison } dpa bs

/-- Clear `n` bytes at a device physical address to 0, in the redirect locations too (R283). -/
def memClear (s : State) (dpa n : Nat) : State :=
  let s1 : State :=
    { s with mem := clearBytes s.mem dpa n, poison := s.poison.filter (fun p => p.1 < dpa / 64 || dpa + n ≤ p.1 * 64) }
  if isHbm dpa ∧ (stackAt s (stackOf dpa)).migrating.isSome then
    bumpBy (modStack s1 (stackOf dpa) fun k => { k with
      redirect := clearBytes k.redirect dpa n
      redirectBad := k.redirectBad.filter (fun p => p.1 < dpa / 64 || dpa + n ≤ p.1 * 64) }) (pgDie (stackOf dpa) 2) 4
      ((List.range ((dpa + n + 255) / 256 - dpa / 256)).filter
        (fun j => migrates (stackAt s (stackOf dpa)) (stackOf dpa) ((dpa / 256 + j) * 256))).length
  else s1

/-- A line is poisoned (R281). -/
def poisoned (s : State) (dpa : Nat) : Bool := mget s.poison false (dpa / 64)

/-! ### Segments (R261) and windows (R265) -/

/-- A segment entry decoded. -/
structure SegView where
  valid : Bool
  vbase : Nat
  pbase : Nat
  target : Nat
  write : Bool
  host : Bool
  scratch : Bool
  len : Nat
  deriving DecidableEq, Repr

/-- The entry that three words spell (Table — Segment entry). -/
def segOfWords (w0 w1 w2 : Nat) : SegView :=
  { valid := bit w0 31, vbase := bits w0 26 0, pbase := bits w1 15 0, target := bits w1 19 16, write := bit w1 20,
    host := bit w1 21, scratch := bit w1 22, len := bits w2 15 0 + 1 }

def segView (i : Inst) (n : Nat) : SegView :=
  segOfWords (mget i.segs 0 (n * 4)).toNat (mget i.segs 0 (n * 4 + 1)).toNat (mget i.segs 0 (n * 4 + 2)).toNat

/-- The valid entry that maps a segment-virtual address (R261). -/
def findSeg (i : Inst) (va : Nat) : Option SegView :=
  ((List.range 64).map (segView i)).find? fun g =>
    g.valid && decide (g.vbase * unit2M ≤ va ∧ va < (g.vbase + g.len) * unit2M)

/-- The owned slices in ascending index: hedge slice number j is the j-th (11_memory.md, Terms). -/
def ownedSlices (i : Inst) : List Nat := (List.range 256).filter (fun k => i.slices.getLsbD k)

/-- The device physical address of an offset into hedge slice number j (R262). -/
def hedgeSlice (i : Inst) (j : Nat) : Option Nat := ((ownedSlices i)[j]?).map sliceBase

/-- The device physical address that a segment gives a segment-virtual address (R257, R261). -/
def segPhys (i : Inst) (g : SegView) (va : Nat) : Option Nat :=
  let u := va / unit2M - g.vbase
  if g.target < 8 then some (frameBase g.target (g.pbase + u) + va % unit2M)
  else if g.target = 8 then (hedgeSlice i (g.pbase + u)).map (· + va % unit2M)
  else none

/-- The device physical address of a segment-virtual address. -/
def physOf (i : Inst) (va : Nat) : Option Nat := (findSeg i va).bind (fun g => segPhys i g va)

/-- The window whose range V holds an address (R265), with its number. -/
def findWin (i : Inst) (va : Nat) : Option (Nat × WinDecl) :=
  ((List.range i.wins.length).zip i.wins).find? fun p =>
    decide (p.2.v * unit2M ≤ va ∧ va < (p.2.v + p.2.len) * unit2M)

/-- An address lies in a buffer of some window (R263). -/
def inBuffer (i : Inst) (va : Nat) : Bool :=
  i.wins.any fun w =>
    decide (w.b0 * unit2M ≤ va ∧ va < (w.b0 + w.len) * unit2M) ||
    decide (w.b1 * unit2M ≤ va ∧ va < (w.b1 + w.len) * unit2M)

/-- The key of a window line's selector: window × 2^32 + line (R266). -/
def selKey (n : Nat) (w : WinDecl) (va : Nat) : Nat := n * 2 ^ 32 + (va - w.v * unit2M) / 64

/-- The segment-virtual address of a window line in buffer B0 or B1. -/
def bufVa (w : WinDecl) (second : Bool) (va : Nat) : Nat :=
  (if second then w.b1 else w.b0) * unit2M + (va - w.v * unit2M)

/-- Where a plan's or a host's read of a line looks: its segment, or the committed copy of its window line (R266). -/
def readVa (i : Inst) (va : Nat) : Nat :=
  match findWin i va with
  | some (n, w) => bufVa w (mget i.sel false (selKey n w va)) va
  | none => va

/-- A plan read of the line at `va`: its device physical address, or none when it is refused (R263). -/
def planReadPhys (i : Inst) (va : Nat) : Option Nat :=
  match findWin i va with
  | some _ => physOf i (readVa i va)
  | none => if inBuffer i va then none else physOf i va

/-- A plan write of the line at `va` (R263, R266): its device physical address, and the window line that becomes
pending. -/
def planWritePhys (i : Inst) (va : Nat) : Option (Nat × Option Nat) :=
  match findWin i va with
  | some (n, w) =>
    let key := selKey n w va
    (physOf i (bufVa w (!(mget i.sel false key)) va)).map (fun a => (a, some key))
  | none =>
    if inBuffer i va then none
    else match findSeg i va with
      | some g => if g.write then (segPhys i g va).map (fun a => (a, none)) else none
      | none => none

/-- Every segment that holds a part of a window's buffers has HOST = 1 (R269). -/
def winHost (i : Inst) (w : WinDecl) : Bool :=
  (List.range w.len).all fun u =>
    ((findSeg i ((w.b0 + u) * unit2M)).map (·.host) == some true) &&
    ((findSeg i ((w.b1 + u) * unit2M)).map (·.host) == some true)

/-- The stack or slice behind a segment-virtual address lies on a die that the hedge covers (R16). -/
def reached (i : Inst) (va : Nat) : Bool :=
  match physOf i (readVa i va) with
  | some a => !(isHbm a) || decide (i.w * i.h = 0) || (diesOf i).contains (stackOf a)
  | none => true

/-- Host DMA may touch the unit at `va` (R16, R263, R269). -/
def hostUnitOk (i : Inst) (isIn : Bool) (va : Nat) : Bool :=
  reached i va &&
  match findWin i va with
  | some (_, w) => winHost i w && !(isIn && i.st == .running)
  | none => !(inBuffer i va) && ((findSeg i va).map (·.host) == some true)

/-- Host DMA may touch the whole range (R263, R354). -/
def hostRangeOk (i : Inst) (isIn : Bool) (va len : Nat) : Bool :=
  decide (va + len ≤ 2 ^ 48) &&
  (List.range ((va % unit2M + len + unit2M - 1) / unit2M)).all fun u =>
    hostUnitOk i isIn (Nat.max va ((va / unit2M + u) * unit2M))

/-- Read bytes of an instance's own memory through its table: the committed copy of window lines (R269). -/
def vaRead (s : State) (i : Inst) (va n : Nat) : List Byte :=
  (List.range n).map fun k => match physOf i (readVa i (va + k)) with | some a => byteAt s.mem a | none => 0

/-- Write a run of bytes that lies in one 64 B line: a DMA, a port die or the device writes the committed copy of a window's line,
and only whole (R268, R269); a part of one is refused and counted. -/
def vaRun (id : Nat) (s : State) (p : Nat × List Byte) : State :=
  let i := instAt s id
  if (findWin i p.1).isSome ∧ p.2.length ≠ 64 then bump s (pgHbcI id) 0
  else match physOf i (readVa i p.1) with
    | some a => memWrite s a p.2
    | none => s

/-- The runs of a range of bytes: none crosses a 64 B line (R290). -/
def lineRuns : Nat → Nat → List Byte → List (Nat × List Byte)
  | 0, _, _ => []
  | n + 1, a, bs =>
    if bs.isEmpty then []
    else (a, bs.take (64 - a % 64)) :: lineRuns n (a + (64 - a % 64)) (bs.drop (64 - a % 64))

/-- Write bytes of an instance's own memory, a run at a time. -/
def vaWrite (s : State) (id va : Nat) (bs : List Byte) : State :=
  (lineRuns (bs.length / 64 + 2) va bs).foldl (vaRun id) s

/-- The commit of a hedge's windows (R267): every pending line flips its selector and stops being pending. -/
def commitWindows (s : State) (id : Nat) : State :=
  let i := instAt s id
  let flip := i.pend.foldl (fun m p => mmod m false p.1 (!·)) i.sel
  bumpBy (setInst s id { i with sel := flip, pend := [] }) (pgHbcI id) 1 i.pend.length

/-- A discarded tick clears the pending marks and changes no selector (R267). -/
def dropPending (s : State) (id : Nat) : State :=
  let i := instAt s id
  bumpBy (setInst s id { i with pend := [] }) (pgHbcI id) 2 i.pend.length

/-! ### Segment entries (R259, R264) -/

/-- The frames of a decoded HBM segment. -/
def segFrames (g : SegView) : Nat × Nat := (g.pbase, g.pbase + g.len)

/-- Two ranges overlap. -/
def overlap (a b c d : Nat) : Bool := decide (a < d ∧ c < b)

/-- Another instance owns a frame that the entry maps (R259): one of its valid entries, or one still being zeroed (R114),
maps it. -/
def frameTaken (s : State) (id : Nat) (g : SegView) : Bool :=
  s.insts.any fun p => p.1 != id && (List.range 64).any fun n =>
    let h := segView p.2 n
    h.valid && h.target == g.target && overlap h.pbase (h.pbase + h.len) g.pbase (g.pbase + g.len)

/-- The entry is refused with PG_ERR bit 1 (R259). -/
def segRefused (s : State) (id : Nat) (g : SegView) : Bool :=
  decide (g.target < 8) &&
    (frameTaken s id g || overlap g.pbase (g.pbase + g.len) 21457 22888 ||
      !(s.glb.diesC.getLsbD g.target))

/-- The entry is malformed, PG_ERR bit 3 (R259). -/
def segMalformed (i : Inst) (n : Nat) (g : SegView) : Bool :=
  decide (9 ≤ g.target) ||
  ((List.range 64).any fun m => m != n &&
    (let h := segView i m
     h.valid && overlap h.vbase (h.vbase + h.len) g.vbase (g.vbase + g.len))) ||
  decide (2 ^ 48 < (g.vbase + g.len) * unit2M) ||
  (decide (g.target < 8) && decide (22888 < g.pbase + g.len))

/-- The bits of segment word `w` that are not RSV. -/
def segMask (w : Nat) : Word := match w with | 0 => 0x87FFFFFF | 1 => 0x007FFFFF | 2 => 0x0000FFFF | _ => 0

/-- A management write to word `w` of entry `n` (R114, R259, R264). While RUNNING only the clearing of VALID is taken, for
the next boundary. -/
def writeSeg (s : State) (id n w : Nat) (v : Word) : State :=
  let i := instAt s id
  let pg := pgHbcI id
  if i.zeroing.contains n then pgErr s pg 2
  else if i.st = .running then
    if w = 0 ∧ !(v.getLsbD 31) ∧ (segView i n).valid then
      let t := setInst s id { i with segClear := i.segClear ++ [n] }
      if v &&& segMask 0 = mget i.segs 0 (n * 4) &&& 0x7FFFFFFF then t else pgErr t pg 0
    else pgErr s pg 0
  else
    let word (k : Nat) : Word := if k = w then v &&& segMask w else mget i.segs 0 (n * 4 + k)
    let g := segOfWords (word 0).toNat (word 1).toNat (word 2).toNat
    let r1 := g.valid && segRefused s id g
    let r3 := g.valid && segMalformed i n g
    if r1 || r3 then
      let t := if r1 then pgErr s pg 1 else s
      if r3 then pgErr t pg 3 else t
    else setInst s id { i with segs := mset i.segs 0 (n * 4 + w) (v &&& segMask w) }

/-- SEGMENT_ENTRY_WRITE by management (R264). -/
def execSegmentEntryWrite (h : InstId) (n : Fin 64) (w : Fin 4) (v : Word) (s : State) : Result :=
  .next (if h.val = 0 then s else bar0Write s (pgHbcI h.val) fun t => writeSeg t h.val n.val w.val v)

/-- Clears of VALID that wait apply at the boundary (R264). -/
def applySegClears (s : State) (id : Nat) : State :=
  modInst s id fun i => { i with
    segs := i.segClear.foldl (fun m n => mmod m 0 (n * 4) (· &&& 0x7FFFFFFF)) i.segs
    segClear := [] }

/-- A valid segment, pending clears counted as done, lies on a stack that `covers` does not hold (R109, R264). -/
def strayStack (i : Inst) (covers : Nat → Bool) : Bool :=
  (List.range 64).any fun n =>
    let g := segView i n
    g.valid && !(i.segClear.contains n) && decide (g.target < 8) && !(covers g.target)

/-- Allocatable frames of stack `d` that no instance owns (HBC FRAMES_FREE). -/
def framesFree (s : State) (d : Nat) : Nat :=
  21457 - (s.insts.map (fun p => ((List.range 64).map (fun n =>
    let g := segView p.2 n
    if g.valid && g.target == d then g.len else 0)).sum)).sum

/-! ### Zeroing after a reset (R114) -/

/-- The segment of the instance that is being zeroed on stack `d`: the lowest index. -/
def zeroingSeg (i : Inst) (d : Nat) : Option Nat :=
  i.zeroing.find? (fun n => decide ((segView i n).target = d))

/-- A slot of the instance's own on stack `d` zeroes `cap` bytes of the segment in progress (R114). -/
def zeroSlot (s : State) (id d cap : Nat) : State :=
  let i := instAt s id
  match zeroingSeg i d with
  | none => s
  | some n =>
    let g := segView i n
    let pos := mget i.zeroPos 0 d
    let p' := Nat.min (pos + cap) (g.len * unit2M)
    let s1 := memClear s (frameBase g.target g.pbase + pos) (p' - pos)
    setInst s1 id { i with
      zeroPos := mset i.zeroPos 0 d p'
      zeroRemain := i.zeroRemain - (p' / unit2M - pos / unit2M) }

/-- A segment is zeroed: its frames return to the stack and its entry to its reset value (R114). -/
def freeSegment (s : State) (id n : Nat) : State :=
  let i := instAt s id
  let g := segView i n
  let pos := mget i.zeroPos 0 g.target
  let s1 := memClear s (frameBase g.target g.pbase) (g.len * unit2M)
  setInst s1 id { i with
    zeroing := i.zeroing.filter (fun e => e != n)
    zeroPos := mset i.zeroPos 0 g.target 0
    zeroRemain := i.zeroRemain - (g.len - pos / unit2M)
    segs := (List.range 4).foldl (fun m k => mset m 0 (n * 4 + k) 0) i.segs }

/-- SEGMENT_ZEROED: the segment in progress on its stack, once the instance's slots have zeroed the whole of it (R114). -/
def execSegmentZeroed (h : InstId) (n : Fin 64) (s : State) : Result :=
  .next <|
    let i := instAt s h.val
    let g := segView i n.val
    if i.zeroing.contains n.val ∧ i.resetStep ≠ 1 ∧ zeroingSeg i g.target = some n.val ∧
        g.len * unit2M ≤ mget i.zeroPos 0 g.target then
      touch (freeSegment s h.val n.val) (pgHbcI h.val)
    else s

/-! ### Carried state (R270–R275) -/

/-- The working copy of the carried-area lines. -/
def carriedLines (k : Cluster) : Bytes :=
  k.carried.lines.foldl (fun m l => copyBytes k.store (64 * l) m (64 * l) 64) []

/-- The carried parts of the sprigs' data memory: sprig × 2048 + address. -/
def carriedDmem (k : Cluster) : Bytes :=
  k.carried.dmem.foldl (fun m r => copyBytes (sprigAt k r.1).dmem r.2.1 m (r.1 * 2048 + r.2.1) r.2.2) []

/-- The blocks' states or clamps of every sheet. -/
def blockMap (u : Su) (f : SuBlock → Word64) : FMap Word64 :=
  u.blocks.foldl (fun m p => mset m 0 p.1 (f p.2)) []

/-- The SU carried image of R209, empty when SUA_CFG.CARRY = 0. -/
def carriedSu (u : Su) : SuImage :=
  if u.carry then
    { states := blockMap u (·.states), clamps := blockMap u (·.clamps), applied := u.applied, received := u.received,
      ann := u.ann }
  else {}

/-- The working copy becomes the committed copy, with the sprig and the SU parts (R271). -/
def commitCarried (k : Cluster) : Cluster :=
  { k with carried := { k.carried with
      store := carriedLines k, sprig := carriedDmem k, su := carriedSu k.su, mirrorDone := k.carried.mirror.isNone } }

/-- A discarded tick: the working copy reverts to the committed copy (R271). -/
def revertCarried (k : Cluster) : Cluster :=
  { k with
    store := k.carried.lines.foldl (fun m l => copyBytes k.carried.store (64 * l) m (64 * l) 64) k.store
    carried := { k.carried with dirty := [] } }

/-- Put the SU carried image back (R272). -/
def restoreSu (u : Su) (m : SuImage) : Su :=
  if u.carry then
    let keys := (u.blocks.map (·.1)) ++ (m.states.map (·.1)) ++ (m.clamps.map (·.1))
    { u with
      blocks := keys.foldl (fun b n => mmod b {} n (fun x =>
        { x with states := mget m.states 0 n, clamps := mget m.clamps 0 n })) u.blocks
      applied := m.applied, received := m.received, ann := m.ann }
  else u

/-- At OPEN the sprig and the SU parts are restored from the committed copy (R272). -/
def restoreCarried (k : Cluster) : Cluster :=
  let k1 := k.carried.dmem.foldl (fun t r => modSprig t r.1 (fun x =>
    { x with dmem := copyBytes k.carried.sprig (r.1 * 2048 + r.2.1) x.dmem r.2.1 r.2.2 })) k
  { k1 with su := restoreSu k1.su k.carried.su }

/-- Round up to a whole number of 64 B lines. -/
def roundLine (n : Nat) : Nat := (n + 63) / 64 * 64

/-- Pad to a 64 B boundary. -/
def padLine (l : List Byte) : List Byte := l ++ List.replicate (roundLine l.length - l.length) 0

/-- Bits `base` to `base + n - 1` of a bit map, packed. -/
def packBits (m : FMap Bool) (base n : Nat) : List Byte :=
  (List.range (n / 8)).map fun b =>
    BitVec.ofNat 8 ((List.range 8).foldl (fun a j => a + (if mget m false (base + 8 * b + j) then 2 ^ j else 0)) 0)

/-- Sheets served, D (R207): the code 3 is reserved and serves none that code 2 does not. -/
def sheetCount (u : Su) : Nat := match u.sheets.toNat with | 0 => 1 | 1 => 2 | _ => 4

/-- Numbers in ascending order. -/
def ascending (l : List Nat) : List Nat := (l.foldl (fun (m : FMap Unit) n => minsert m n ()) []).map (·.1)

/-- The carried ranges of data memory in ascending order of sprig and address (R273): offset and length by their place. -/
def ascendingRanges (l : List (Nat × Nat × Nat)) : FMap Nat :=
  l.foldl (fun m r => minsert m (r.1 * 2048 + r.2.1) r.2.2) []

/-- The committed carried state as the mirror area holds it (R273): the carried lines, the sprig part, then the SU carried
image. The 32 B of a block's annealing state are laid out by entry 19. -/
def mirrorImage (k : Cluster) : List Byte :=
  let c := k.carried
  let lines := (ascending c.lines).flatMap (fun l => readBytes c.store (64 * l) 64)
  let sprigs := (ascendingRanges c.dmem).flatMap (fun r => readBytes c.sprig r.1 r.2)
  let d := if k.su.carry then sheetCount k.su else 0
  let sheet (n : Nat) : List Byte :=
    (List.range 64).flatMap (fun b => leBytes 8 (mget c.su.states 0 (n * 64 + b)).toNat) ++
    (List.range 64).flatMap (fun b => leBytes 8 (mget c.su.clamps 0 (n * 64 + b)).toNat) ++
    packBits c.su.applied (n * 16384) 16384
  let ann (b : Nat) : List Byte :=
    let a := mget c.su.ann {} b
    leBytes 4 a.bramble.toNat ++ leBytes 4 a.acc ++ leBytes 4 a.sw ++ leBytes 20 0
  let su := if k.su.carry then
      (List.range d).flatMap sheet ++ packBits c.su.received 0 16384 ++ (List.range 64).flatMap ann
    else []
  padLine lines ++ padLine sprigs ++ su

/-- The lines that a mirror window copies: those written in the tick and the whole of the other two parts (R273), or all
of them after a mirror error (R285). -/
def mirrorLines (k : Cluster) : Nat :=
  let all := roundLine (mirrorImage k).length / 64
  if k.carried.recopy then all else all - k.carried.lines.length + k.carried.dirty.length

/-- Bring a cluster's mirror area to its committed carried state (R273, R275). -/
def copyMirror (s : State) (c : Nat) : State :=
  let k := clusterAt s c
  match k.carried.mirror with
  | none => s
  | some a =>
    let s1 := memWrite s a (mirrorImage k)
    let s2 := setCluster s1 c { k with carried := { k.carried with mirrorDone := true, recopy := false, dirty := [] } }
    bumpBy s2 (pgHbcI k.owner) 3 (mirrorLines k)

/-- MIRROR_COPY_DONE: the copy of the last committed tick completes, by the end of the next OPEN (R275). -/
def execMirrorCopyDone (c : Cl) (s : State) : Result :=
  .next <|
    let k := clusterAt s c.val
    if k.owner ≠ 0 ∧ (k.carried.mirrorDone = false ∨ k.carried.recopy = true) ∧
        (s.tck.phase = .commit ∨ s.tck.phase = .openP) then copyMirror s c.val
    else s

/-! ### Uncorrectable errors (R285) -/

/-- A data-loss report on the HBC instance page, and event 2 (R285, R361); the hedge goes HELD with cause 3. -/
def dataLoss (s : State) (id kind addr : Nat) : State :=
  let s1 := modInst s id fun i => { i with dataLoss := true, lossKind := kind, lossAddr := BitVec.ofNat 64 addr }
  holdFault (postEvent (touch s1 (pgHbcI id)) id 2 0) id 3

/-- LOSSADDR of a location inside a cluster (HBC instance page). -/
def lossInCluster (i : Inst) (c mem : Nat) : Nat := 2 ^ 63 + mem * 2 ^ 32 + localId i c

/-- A segment of the instance that holds a device physical address, as the segment-virtual address it maps it at. -/
def vaOfPhys (i : Inst) (dpa : Nat) : Option (Nat × SegView) :=
  ((List.range 64).map (segView i)).findSome? fun g =>
    if !g.valid then none
    else ((List.range g.len).find? (fun u =>
        segPhys i g ((g.vbase + u) * unit2M) == some (dpa / unit2M * unit2M))).map
      (fun u => ((g.vbase + u) * unit2M + dpa % unit2M, g))

/-- The owner of a device physical address: the instance whose segment maps it, or whose hedge owns the slice. -/
def physOwner (s : State) (dpa : Nat) : Option Nat :=
  (s.insts.find? fun p =>
    (vaOfPhys p.2 dpa).isSome || (!(isHbm dpa) && p.2.slices.getLsbD (sliceIndexOf dpa))).map (·.1)

/-- The window line whose buffer holds a segment-virtual address: its window address, its selector key, and whether the
address is the second buffer's. -/
def winOfBuf (i : Inst) (va : Nat) : Option (Nat × Nat × Bool) :=
  ((List.range i.wins.length).zip i.wins).findSome? fun p =>
    let w := p.2
    let at0 := decide (w.b0 * unit2M ≤ va ∧ va < (w.b0 + w.len) * unit2M)
    let at1 := decide (w.b1 * unit2M ≤ va ∧ va < (w.b1 + w.len) * unit2M)
    if at0 || at1 then
      let v := w.v * unit2M + (va - (if at0 then w.b0 else w.b1) * unit2M)
      some (v, selKey p.1 w v, at1)
    else none

/-- Mark a pseudo-channel for retirement, or set MARGIN_EXH at the limit (R282, R284, codes 0x1006 and 0x1007). -/
def markPc (s : State) (d pc : Nat) (injected : Bool) : State :=
  let k := stackAt s d
  if k.marked.contains pc || k.migrating == some pc || k.retMap.getLsbD pc then s
  else if retireCount k < retireLimit s then modStack s d fun k => { k with marked := k.marked ++ [pc] }
  else
    logErr (modStack s d fun k => { k with marginExh := true })
      { sev := .note, srcType := 0x30, srcInst := d, code := 0x1007, inst := 0, detail := pc, injected := injected }

/-- The cluster whose mirror area holds a device physical address (R273). -/
def mirrorOf (s : State) (dpa : Nat) : Option Nat :=
  (s.clusters.find? fun p => match p.2.carried.mirror with
    | some m => decide (p.2.owner ≠ 0 ∧ m ≤ dpa ∧ dpa < m + 65536)
    | none => false).map (·.1)

/-- A mirror area is copied whole in the next mirror window (R285). -/
def recopyMirror (s : State) (c : Nat) : State :=
  modCluster s c fun k => { k with carried := { k.carried with recopy := true } }

/-- The severity and the response for the line of a device physical address (R285), for the instance that owns it. -/
def lineResponse (s : State) (dpa : Nat) : Sev × Nat × (State → State) :=
  match mirrorOf s dpa with
  | some c => (.absorb, ownerOf s c, fun t => recopyMirror t c)
  | none =>
  match physOwner s dpa with
  | none => (.note, 0, id)
  | some h =>
    let i := instAt s h
    match vaOfPhys i dpa with
    | none => (.hold, h, fun t => dataLoss (burn t 1) h 2 (Config.freeNat s.fresh))
    | some (va, g) =>
      match winOfBuf i va with
      | some (v, key, second) =>
        if mget i.sel false key = second then (.hold, h, fun t => dataLoss t h 1 v)
        else if mget i.pend false key then (.replay, h, fun t => replayFault t h)
        else (.note, h, id)
      | none =>
        if g.scratch then (.replay, h, fun t => replayFault t h)
        else (.hold, h, fun t => dataLoss t h 2 va)

/-- The mirror of a cluster is intact (R285). -/
def mirrorIntact (k : Cluster) : Bool := k.carried.mirrorDone && !k.carried.recopy

/-- Severity, attributed instance, code, detail and response of an uncorrectable error at a location (R285). A location in
a cluster of no hedge has severity NOTE. -/
def ueTable (s : State) (l : UeLoc) : Sev × Nat × Nat × Nat × (State → State) :=
  let inC (c : Cl) (f : Nat → Inst → Sev × (State → State)) : Sev × Nat × Nat × Nat × (State → State) :=
    let h := ownerOf s c.val
    if h = 0 then (.note, 0, 0x1002, c.val, id)
    else let r := f h (instAt s h)
         (r.1, h, 0x1002, c.val, r.2)
  match l with
  | .line dpa =>
    let r := lineResponse s dpa
    (r.1, r.2.1, if isHbm dpa then 0x1004 else 0x1002, dpa, r.2.2)
  | .carriedWorking c _ => inC c fun h _ => (.replay, fun t => replayFault t h)
  | .carriedCommitted c => inC c fun h i =>
      if mirrorIntact (clusterAt s c.val) then (.replay, fun t => replayFault t h)
      else if !(clusterAt s c.val).carried.mirrorDone then
        (.hold, fun t => dataLoss t h 5 (lossInCluster i c.val 0))
      else (.hold, fun t => dataLoss t h 3 (lossInCluster i c.val 0))
  | .carriedBoth c => inC c fun h i => (.hold, fun t => dataLoss t h 3 (lossInCluster i c.val 0))
  | .mirror c => inC c fun _ _ => (.absorb, fun t => recopyMirror t c.val)
  | .coupling c => inC c fun h i => (.hold, fun t => dataLoss t h 2 (lossInCluster i c.val 1))
  | .sparse c => inC c fun h i => (.hold, fun t => dataLoss t h 2 (lossInCluster i c.val 2))
  | .suState c => inC c fun h i => (.hold, fun t => dataLoss t h 2 (lossInCluster i c.val 3))
  | .plainStore c _ => inC c fun h i => (.hold, fun t => dataLoss t h 2 (lossInCluster i c.val 0))
  | .sprigMem c _ => inC c fun h _ => (.replay, fun t => replayFault t h)
  | .generationMap h => (if h.val = 0 then .note else .hold, h.val, 0x1002, 0,
      if h.val = 0 then id else fun t => dataLoss t h.val 4 0)
  | .segmentTable h => (if h.val = 0 then .note else .hold, h.val, 0x1002, 0,
      if h.val = 0 then id else fun t => dataLoss t h.val 4 0)

/-- The line is written back poisoned; in HBM its pseudo-channel is marked, and the stack page counts it (R281, R282). Poison is kept
for lines of HBM, slices and cluster stores: of the other memories the spec gives no lines (entry 56). -/
def ueRecord (s : State) (l : UeLoc) (injected : Bool) : State :=
  match l with
  | .line dpa =>
    let s1 : State := { s with poison := mset s.poison false (dpa / 64) true }
    if isHbm dpa then
      let d := stackOf dpa
      markPc (bump (modStack s1 d fun k => { k with lastUe := BitVec.ofNat 64 (dpa / 64 * 64) }) (pgDie d 2) 1)
        d (pcOf dpa) injected
    else s1
  | .carriedWorking c l | .plainStore c l =>
    modCluster s c.val fun k => { k with poison := mset k.poison false l.val true }
  | _ => s

/-- Handle an uncorrectable error by its location (R285, R379, R399). -/
def uncorrectable (s : State) (l : UeLoc) (injected : Bool) : State :=
  let (sev, h, code, detail, resp) := ueTable s l
  let src := match l with | .line dpa => (0x30, if isHbm dpa then stackOf dpa else 0) | _ => (0x40, detail)
  let s1 := logErr s { sev := sev, srcType := src.1, srcInst := src.2, code := code, inst := h, detail := detail,
                       injected := injected }
  resp (ueRecord s1 l injected)

/-- A poisoned or freshly uncorrectable line that a transfer reads reports its error (R281, R285); code 0x1005 for poison
that stands already. -/
def badLine (s : State) (dpa : Nat) : State :=
  if poisoned s dpa then
    let (sev, h, _, detail, resp) := ueTable s (.line dpa)
    resp (logErr s { sev := sev, srcType := 0x30, srcInst := if isHbm dpa then stackOf dpa else 0, code := 0x1005,
                     inst := h, detail := detail })
  else uncorrectable s (.line dpa) false

/-- What the device reads of an instance's own memory from `va` on reports the poisoned lines among it (R281). -/
def reportVa (s : State) (h va n : Nat) : State :=
  let i := instAt s h
  ((List.range ((va % 64 + n + 63) / 64)).filterMap fun j =>
    (physOf i (readVa i (va / 64 * 64 + 64 * j))).filter fun a => poisoned s a).foldl badLine s

/-- A read of a poisoned line of a cluster store reports the error again (R281): code 0x1005, the response of the line's place. -/
def storeReport (c : Nat) (s : State) (line : Nat) : State :=
  let k := clusterAt s c
  let cl : Cl := ⟨c % 512, Nat.mod_lt _ (by decide)⟩
  let n : Fin 16384 := ⟨line % 16384, Nat.mod_lt _ (by decide)⟩
  let (sev, h, _, detail, resp) := ueTable s (if k.carried.lines.contains line then .carriedWorking cl n else .plainStore cl n)
  resp (logErr s { sev := sev, srcType := 0x40, srcInst := detail, code := 0x1005, inst := h, detail := detail })

/-- What cluster `c` reads of its store from `a` on, `n` bytes, reports the poison among it. -/
def reportPoison (s : State) (c a n : Nat) : State :=
  let lines := (List.range ((a % 64 + n + 63) / 64)).map fun j => (a / 64 + j) % 16384
  (lines.filter fun l => mget (clusterAt s c).poison false l).foldl (storeReport c) s

/-- A correctable error: corrected in line and counted; over CE_THR within 65,536 ticks its pseudo-channel is marked
(R279, R282). -/
def correctable (s : State) (l : UeLoc) (injected : Bool) : State :=
  match l with
  | .line dpa =>
    if isHbm dpa then
      let d := stackOf dpa
      let now := s.tck.devTick.toNat
      let k := stackAt s d
      let recent := ((mget k.ce [] (pcOf dpa)).filter (fun t => decide (now < t + 65536))) ++ [now]
      let s1 := logErr (bump (modStack s d fun k => { k with ce := mset k.ce [] (pcOf dpa) recent }) (pgDie d 2) 0)
        { sev := .note, srcType := 0x30, srcInst := d, code := 0x1003, inst := 0, detail := dpa, injected := injected }
      if k.ceThr < recent.length then markPc s1 d (pcOf dpa) injected else s1
    else logErr s { sev := .note, srcType := 0x30, srcInst := 0, code := 0x1001, inst := 0, detail := dpa,
                    injected := injected }
  | .generationMap h | .segmentTable h =>
    logErr s { sev := .note, srcType := 0x30, srcInst := 0x100 + h.val, code := 0x1001, inst := h.val, detail := 0,
               injected := injected }
  | .mirror c =>
    logErr s { sev := .note, srcType := 0x40, srcInst := c.val, code := 0x1001, inst := ownerOf s c.val,
               detail := c.val, injected := injected }
  | .carriedWorking c _ | .carriedCommitted c | .carriedBoth c | .plainStore c _ =>
    modCluster (logErr s { sev := .note, srcType := 0x41, srcInst := c.val, code := 0x1001, inst := ownerOf s c.val,
                           detail := c.val, injected := injected }) c.val
      fun k => { k with me := { k.me with corrected := k.me.corrected + 1 } }
  | .sprigMem c _ =>
    modCluster (logErr s { sev := .note, srcType := 0x42, srcInst := c.val, code := 0x1001, inst := ownerOf s c.val,
                           detail := c.val, injected := injected }) c.val
      fun k => { k with sprigCorrected := k.sprigCorrected + 1 }
  | .coupling c | .sparse c | .suState c =>
    modCluster (logErr s { sev := .note, srcType := 0x43, srcInst := c.val, code := 0x1001, inst := ownerOf s c.val,
                           detail := c.val, injected := injected }) c.val
      fun k => { k with su := { k.su with corrected := k.su.corrected + 1 } }

/-! ### Retirement -/

/-- One more pseudo-channel of a stack may be retired (R284): whatever the margin in effect was when it was marked. -/
def mayRetire (s : State) (k : Stack) : Bool := decide (ones64 k.retMap < retireLimit s)

/-- The number of a granule within its pseudo-channel: the addresses of one lie 16 KiB apart (R257). -/
def granuleOf (dpa : Nat) : Nat := dpa % 0x10_0000_0000 / 16384

/-- Granules `lo` to `hi` of the pseudo-channel that migrates are copied with their poison (R283). -/
def copyGranules (s : State) (d lo hi : Nat) : State :=
  modStack s d fun k =>
    let now (a : Nat) : Bool := migrates k d a && decide (lo ≤ granuleOf a ∧ granuleOf a < hi)
    { k with
      redirect := (mfilter s.mem now).foldl (fun m p => setByte m p.1 p.2) (mfilter k.redirect fun a => !(now a))
      redirectBad := (mfilter s.poison fun l => now (64 * l)).foldl (fun m p => mset m false p.1 p.2)
        (mfilter k.redirectBad fun l => !(now (64 * l))) }

/-- A step of migration on stack `d` in COPPICE (R283): the oldest marked pseudo-channel migrates; one at a time. After
its 21,457 × 128 granules the read switch is due. -/
def execPcMigrationStep (d : Die) (granules : Nat) (s : State) : Result :=
  .next <|
    let k := stackAt s d.val
    if s.tck.phase ≠ .coppice ∨ !(mayRetire s k) then s
    else
      let k1 := match k.migrating, k.marked with
        | some _, _ => k
        | none, p :: rest =>
          { k with migrating := some p, marked := rest, migPc := p, migPos := 0, redirect := [], redirectBad := [] }
        | none, [] => k
      if k1.migrating.isNone ∨ k1.switchDue then s
      else
        let pos := Nat.min (k1.migPos + granules) (21457 * 128)
        let s1 := copyGranules (modStack s d.val fun _ => k1) d.val k1.migPos pos
        touch (modStack s1 d.val fun k => { k with migPos := pos, switchDue := decide (21457 * 128 ≤ pos) }) (pgDie d.val 2)

/-- Reads go to the redirect locations from here on: what they hold stands for the pseudo-channel's addresses. -/
def switchReads (s : State) (d : Nat) : State :=
  let k := stackAt s d
  { s with
    mem := k.redirect.foldl (fun m p => setByte m p.1 p.2) (mfilter s.mem fun a => !(migrates k d a))
    poison := k.redirectBad.foldl (fun m p => mset m false p.1 p.2) (mfilter s.poison fun l => !(migrates k d (64 * l))) }

/-- The read switch (R59, R283): in the COMMIT/OPEN window reads go to the redirect locations; the channel is retired. -/
def execPcReadSwitch (d : Die) (s : State) : Result :=
  .next <|
    let k := stackAt s d.val
    match k.migrating with
    | some p =>
      if k.switchDue ∧ (s.tck.phase = .commit ∨ s.tck.phase = .openP) ∧ mayRetire s k then
        let s1 := modStack (switchReads s d.val) d.val fun k => { k with
          migrating := none, switchDue := false, redirect := [], redirectBad := [], retMap := k.retMap ||| (1 <<< p) }
        logErr (bump (recordPc s1 d.val p) (pgDie d.val 2) 5)
          { sev := .absorb, srcType := 0x30, srcInst := d.val, code := 0x1006, inst := 0, detail := p }
      else s
    | none => s

end Sys2Proof.Machine
end

