-- ==== Sys2Proof/Machine/Host.lean ====
section
/-! DEFINITION. Machine/Host.lean: rings, descriptors and transfers (15_host.md): doorbells, the tail snapshot, fetching and
checking a descriptor, DMA_IN, DMA_OUT, DRAW_ENTROPY, TRACE_READ, FENCE and NOP, completion timeouts and the host links. -/

namespace Sys2Proof.Machine

/-! ### Descriptors (R352) -/

/-- `n` bytes from byte `k` of a descriptor. -/
def dField (d : BitVec 512) (k n : Nat) : Nat := d.toNat / 2 ^ (8 * k) % 2 ^ (8 * n)

def dType (d : BitVec 512) : Nat := dField d 0 1

/-- The ones of bits `lo` to `hi`. -/
def onesRange (lo hi : Nat) : Nat := (2 ^ (hi + 1 - lo) - 1) * 2 ^ lo

/-- The bits of a descriptor of a listed TYPE that a field of the body uses; none for an unlisted TYPE (R352). -/
def bodyMask (t : Nat) : Option Nat :=
  if t = 0 ∨ t = 2 ∨ t = 3 ∨ t = 9 then some 0
  else if t = 1 then some (onesRange 64 159)
  else if t = 4 ∨ t = 5 then some (onesRange 64 223)
  else if t = 6 ∨ t = 7 then some (onesRange 64 127 + onesRange 192 223)
  else if t = 8 then
    some (onesRange 64 88 + onesRange 96 119 + onesRange 128 147 + onesRange 160 178 + onesRange 192 511)
  else if t = 0x40 then some (onesRange 64 76 + onesRange 80 90 + onesRange 96 383)
  else if t = 0x41 then some (onesRange 64 77 + onesRange 80 90 + onesRange 96 383)
  else if t = 0x42 then some (onesRange 64 71)
  else none

/-- TYPE, FLAGS bit 0, CHK and COOKIE. -/
def headMask : Nat := onesRange 0 8 + onesRange 16 63

/-- A descriptor passes the checks of R352: the XOR of its halfwords is 0, its reserved bits are 0, its TYPE is listed. -/
def descOk (d : BitVec 512) : Bool :=
  xorHalves 32 d.toNat == 0 &&
    match bodyMask (dType d) with
    | some m => Nat.land d.toNat (headMask + m) == d.toNat
    | none => false

/-- The TYPEs that only management's rings may carry (R353). -/
def mgmtType (t : Nat) : Bool := t == 0x40 || t == 0x41 || t == 0x42

/-! ### Rings -/

/-- A ring is in service: enabled, of the kind asked for, its owner's VF enabled (R343) and not resetting (R112). -/
def ringActive (s : State) (r : Nat) (kind : Bool) : Bool :=
  let x := ringAt s r
  x.enable && x.kind == kind &&
    (x.owner == 0 || ((instAt s x.owner).vfEnabled && (instAt s x.owner).st != .resetting))

/-- At every t0 the device takes each submit ring's tail snapshot (R349). -/
def snapshotTails (s : State) : State :=
  { s with rings := mmap {} (fun _ x => if x.enable && !x.kind then { x with snap := x.tail } else x) s.rings }

/-- A doorbell moves its index forward and not past the other one (R347, R348). -/
def doorbellOk (x : Ring) (v : Nat) : Bool :=
  decide (v < ringSize x) &&
    if x.kind then decide (ringDist x x.head v ≤ ringDist x x.head x.tail)
    else decide (ringDist x x.head x.tail + ringDist x x.tail v ≤ ringSize x - 1)

/-- A VF writes a ring that is not its own: outside its pages (R344). -/
def vfViolation (s : State) (f : Nat) : State :=
  modPci s (if s.failedOver then 1 else 0) fun p => { p with vfViol := mset p.vfViol 0 f (mget p.vfViol 0 f + 1) }

/-- A doorbell (R348, R112). -/
def ringDoorbell (s : State) (r v : Nat) : State :=
  let x := ringAt s r
  if x.enable ∧ doorbellOk x v ∧ (x.owner = 0 ∨ (instAt s x.owner).st ≠ .resetting) then
    setRing s r (if x.kind then { x with head := v } else { x with tail := v })
  else bump s (pgRng r) 2

/-- DOORBELL: a new tail or head, or one that is ignored and counted in PG_CNT2 (R348, R112). -/
def execDoorbell (f : Fn) (r : RingId) (v : BitVec 16) (s : State) : Result :=
  .next <|
    let x := ringAt s r.val
    if f.val ≠ 0 ∧ x.owner ≠ f.val then
      if s.pwr.saving ∨ !s.glb.ready then s else vfViolation s f.val
    else bar0Write s (pgRng r.val) fun t =>
      ringDoorbell t r.val v.toNat

/-- Four entries of the instance's event ring are kept for events (R350). -/
def eventReserve (s : State) (cq : Nat) : Nat :=
  if eventRing s (ringAt s cq).owner = some cq ∨ cq = 1 then 4 else 0

/-- The completion ring has a free entry beyond every entry already reserved (R350). -/
def cqHasRoom (s : State) (cq : Nat) : Bool :=
  decide (cqReserved s cq + cqHeld s cq + eventReserve s cq < cqFree (ringAt s cq))

/-- In COMMIT nothing is accepted on a ring of management (R390). -/
def mgmtWaits (s : State) (x : Ring) : Bool := x.owner == 0 && ticking s && s.tck.phase == .commit

/-- Fetching goes on: the ring is in service, below its tail snapshot, and no FENCE holds it (R349, R355, R390, R432, R477). -/
def canFetch (s : State) (r : Nat) : Bool :=
  let x := ringAt s r
  !(mgmtWaits s x) &&
  s.glb.ready && !s.pwr.saving && ringActive s r false && ringActive s x.cq true && x.head != x.snap && !x.fenced

/-- Accept the fetched descriptor in its ring's order (R351); a FENCE holds later fetches (R355). -/
def acceptDesc (s : State) (r : Nat) (d : BitVec 512) : State :=
  let x := ringAt s r
  bump (setRing s r { x with
    head := (x.head + 1) % ringSize x, nextSeq := x.nextSeq + 1, cqWait := false, fenced := descOk d && dType d == 9,
    slots := x.slots ++ [{ seq := x.nextSeq, desc := d, begun := false, headAfter := (x.head + 1) % ringSize x, entry := none }] }) (pgRng r) 0

/-- DESCRIPTOR_FETCH: fetch and check one descriptor below the snapshot, or wait for room on the completion ring (R350).
A descriptor that fails completes with BAD_DESCRIPTOR (R352), REFUSED_PRIV, or on a management ring REFUSED_STATE (R353). -/
def execDescriptorFetch (r : RingId) (d : BitVec 512) (s : State) : Result :=
  .next <|
    let x := ringAt s r.val
    if !(canFetch s r.val) then s
    else if !(cqHasRoom s x.cq) then modRing s r.val fun x => { x with cqWait := true }
    else
      let s1 := acceptDesc s r.val d
      let t := dType d
      if !(descOk d) then finishDesc s1 r.val x.nextSeq 0x03 0
      else if mgmtType t ∧ x.owner ≠ 0 then finishDesc s1 r.val x.nextSeq 0x0C 0
      else if x.owner = 0 ∧ (t = 1 ∨ t = 2 ∨ t = 3 ∨ t = 6 ∨ t = 7 ∨ t = 8) then finishDesc s1 r.val x.nextSeq 0x01 0
      else s1

/-- The ring's next descriptor to act on: the first that has not begun, when its TYPE is `t`. -/
def nextDesc (s : State) (r t : Nat) : Option RingSlot :=
  match (ringAt s r).slots.find? (fun d => !d.begun && d.entry.isNone) with
  | some d => if dType d.desc = t then some d else none
  | none => none

/-- That descriptor begins. -/
def beginDesc (s : State) (r seq : Nat) : State :=
  modRing s r fun x => { x with slots := x.slots.map (fun d => if d.seq = seq then { d with begun := true } else d) }

/-- DESC_NOP completes with no effect (R352). -/
def execDescNop (r : RingId) (s : State) : Result :=
  .next <| match nextDesc s r.val 0 with
    | some d => finishDesc (beginDesc s r.val d.seq) r.val d.seq 0 0
    | none => s

/-- FENCE completes when every earlier descriptor of its ring has completed; until then nothing beyond it is fetched
(R355). -/
def execFence (r : RingId) (s : State) : Result :=
  .next <| match (ringAt s r.val).slots.find? (fun d => d.entry.isNone) with
    | some d =>
      if dType d.desc = 9 then
        finishDesc (modRing (beginDesc s r.val d.seq) r.val fun x => { x with fenced := false }) r.val d.seq 0 0
      else s
    | none => s

/-! ### Transfers (R354–R357, R363) -/

/-- The port die of the serving link (R342). -/
def serving (s : State) : Nat := if s.failedOver then 1 else 0

/-- The PCIe calendar of the serving link: direction 0 runs host to device (R469). -/
def pcieCal (s : State) (dir : Nat) : Nat := 88 + serving s * 2 + dir

/-- The port-spine calendar of a compute die: direction 0 runs into the die (R470). -/
def spineCal (d dir : Nat) : Nat := 8 + d * 2 + dir

/-- Tags allotted to an instance on a die: 64 to management, else 0 until written (R363). -/
def tagsAllotted (s : State) (n i : Nat) : Nat := (mget (pciAt s n).tags none i).getD (if i = 0 then 64 else 0)

/-- A DMA tag of the instance's allotment is free (R363). -/
def tagFree (s : State) (i : Nat) : Bool :=
  decide (mget (pciAt s (serving s)).inUse 0 i < tagsAllotted s (serving s) i)

def takeTag (s : State) (i : Nat) : State :=
  modPci s (serving s) fun p => { p with inUse := mset p.inUse 0 i (mget p.inUse 0 i + 1) }

def giveTag (s : State) (i : Nat) : State :=
  modPci s (serving s) fun p => { p with inUse := mset p.inUse 0 i (mget p.inUse 0 i - 1) }

/-- The die of a unit of an instance's memory, and whether it lies in HBM. -/
def unitDie (s : State) (id va : Nat) : Nat × Bool :=
  match physOf (instAt s id) (readVa (instAt s id) va) with
  | some a => if isHbm a then (stackOf a, true) else (sliceIndexOf a / 32, false)
  | none => (0, true)

/-- Bytes from an address to the end of its 2 MiB unit. -/
def unitLeft (va : Nat) : Nat := unit2M - va % unit2M

/-- Where byte `k` of a transfer stands in the instance's memory. -/
def xferVa (x : Transfer) (k : Nat) : Nat := if x.wrap = 0 then x.va + k else x.base + (x.va - x.base + k) % x.wrap

/-- How many of `n` bytes from byte `k` on lie in one 2 MiB unit, before the wrap. -/
def runLen (x : Transfer) (k n : Nat) : Nat :=
  let m := Nat.min n (unitLeft (xferVa x k))
  if x.wrap = 0 then m else Nat.min m (x.wrap - (x.va - x.base + k) % x.wrap)

/-- The transfer uses no borrowed slot: it is none of DMA_IN, DMA_OUT, TRACE_READ and DRAW_ENTROPY (R80). -/
def plannedXfer (x : Transfer) : Bool := match x.kind with | .send _ _ => true | .image => true | _ => false

/-- Bytes of a transfer wait for slots of a calendar: `n` of them, up to byte `stop`. -/
def waitFor (s : State) (x : Transfer) (cal n stop : Nat) : State :=
  enqueue s cal { owner := x.inst, kind := .dma x.id stop, left := n, planned := plannedXfer x }

/-- The read of the transfer's next unit from byte `k` on waits: for slots of its stack, or for spine slots out of its die (R354). -/
def readStage (s : State) (x : Transfer) (k : Nat) : State :=
  let n := runLen x k (x.len - k)
  let u := unitDie s x.inst (xferVa x k)
  waitFor s x (if u.2 then u.1 else spineCal u.1 1) n (k + n)

/-- `n` bytes of a transfer into the device, from byte `k` on, wait for spine slots into their dies: at most two units (R354). -/
def spineStage (s : State) (x : Transfer) (k n : Nat) : State :=
  let m := runLen x k n
  let s1 := waitFor s x (spineCal (unitDie s x.inst (xferVa x k)).1 0) m (k + m)
  if m < n then waitFor s1 x (spineCal (unitDie s x.inst (xferVa x (k + m))).1 0) (n - m) (k + n) else s1

/-- A transfer is in progress. -/
def addXfer (s : State) (x : Transfer) : State := { s with xfers := s.xfers ++ [x], nextXfer := s.nextXfer + 1 }

/-- A new transfer of an instance: nothing has moved. -/
def newXfer (s : State) (kind : XferKind) (inst va len : Nat) : Transfer :=
  { id := s.nextXfer, ring := 0, seq := 0, kind := kind, inst := inst, host := 0, va := va, len := len, base := 0, wrap := 0,
    pcie := 0, spine := 0, moved := 0, status := 0, dead := false, data := [] }

/-- Start the transfer of a descriptor: it takes a tag (R351, R363). -/
def startTransfer (s : State) (x : Transfer) : State := addXfer (takeTag s x.inst) x

/-- DMA_IN and DMA_OUT are refused with ACCESS (R263, R269, R354). -/
def dmaRefused (s : State) (id : Nat) (isIn : Bool) (host va len : Nat) : Bool :=
  decide (host % 64 ≠ 0 ∨ va % 64 ≠ 0 ∨ len % 64 ≠ 0 ∨ len = 0 ∨ 2 ^ 30 < len) ||
    !(hostRangeOk (instAt s id) isIn va len)

/-- DMA_IN: refused, or its host reads start in the instance's PCIe slots (R354). The bytes the host returns are the
command's operand (entry 9). -/
def execDmaIn (r : RingId) (data : List Byte) (s : State) : Result :=
  .next <| match nextDesc s r.val 4 with
    | none => s
    | some d =>
      let id := (ringAt s r.val).owner
      let host := dField d.desc 8 8
      let va := dField d.desc 16 8
      let len := dField d.desc 24 4
      if dmaRefused s id true host va len then
        bump (finishDesc (beginDesc s r.val d.seq) r.val d.seq 0x04 0) (pgHbcI id) 0
      else if tagFree s id ∧ data.length = len then
        let x : Transfer := { newXfer s .dmaIn id va len with ring := r.val, seq := d.seq, host := host, data := data }
        waitFor (startTransfer (beginDesc s r.val d.seq) x) x (pcieCal s 0) len len
      else s

/-- DMA_OUT: refused, or its memory reads start in the instance's HBM or spine slots (R354). -/
def execDmaOut (r : RingId) (s : State) : Result :=
  .next <| match nextDesc s r.val 5 with
    | none => s
    | some d =>
      let id := (ringAt s r.val).owner
      let host := dField d.desc 8 8
      let va := dField d.desc 16 8
      let len := dField d.desc 24 4
      if dmaRefused s id false host va len then
        bump (finishDesc (beginDesc s r.val d.seq) r.val d.seq 0x04 0) (pgHbcI id) 0
      else if tagFree s id then
        let x : Transfer := { newXfer s .dmaOut id va len with ring := r.val, seq := d.seq, host := host }
        readStage (startTransfer (beginDesc s r.val d.seq) x) x 0
      else s

/-- DRAW_ENTROPY: fails while DEGRADED; otherwise its bits are drawn in the supervisor's service slots, as management traffic (R256,
R356, R490). -/
def execDrawEntropy (r : RingId) (s : State) : Result :=
  .next <| match nextDesc s r.val 6 with
    | none => s
    | some d =>
      let id := (ringAt s r.val).owner
      let len := dField d.desc 24 4
      let s1 := beginDesc s r.val d.seq
      if len % 32 ≠ 0 ∨ len = 0 ∨ 65536 < len then finishDesc s1 r.val d.seq 0x04 0
      else if s.ent.degraded then finishDesc s1 r.val d.seq 0x07 0
      else if tagFree s id then
        let x : Transfer := { newXfer s .entropy id 0 len with ring := r.val, seq := d.seq, host := dField d.desc 8 8 }
        enqueue (startTransfer s1 x) 96 { owner := 0, kind := .entropy x.id, left := len, planned := false }
      else s

/-- Records between SUA_TRTAIL and SUA_TRHEAD (R357). -/
def traceCount (a : Anneal) : Nat := (a.trHead + 2 ^ a.trSize - a.trTail) % 2 ^ a.trSize

/-- TRACE_READ copies whole records from SUA_TRTAIL toward SUA_TRHEAD, up to the limit, through the instance's slots (R19, R357). With
nothing to copy it completes at once. -/
def execTraceRead (r : RingId) (s : State) : Result :=
  .next <| match nextDesc s r.val 7 with
    | none => s
    | some d =>
      let id := (ringAt s r.val).owner
      let a := (instAt s id).ann
      let n := Nat.min (dField d.desc 24 4) (traceCount a)
      let s1 := beginDesc s r.val d.seq
      if n = 0 then finishDesc s1 r.val d.seq 0 0
      else if tagFree s id then
        let x : Transfer := { newXfer s .trace id (a.trBase.toNat + 32 * a.trTail) (32 * n) with
          ring := r.val, seq := d.seq, host := dField d.desc 8 8, base := a.trBase.toNat, wrap := 32 * 2 ^ a.trSize }
        readStage (startTransfer s1 x) x 0
      else s

/-- Change the transfer with this id. -/
def modXfer (s : State) (id : Nat) (f : Transfer → Transfer) : State :=
  { s with xfers := s.xfers.map (fun x => if x.id = id then f x else x) }

/-- The device reads `n` bytes of memory for a transfer, from byte `k` on; poison among them is reported (R281). -/
def readFor (s : State) (x : Transfer) (k n : Nat) : State :=
  let bytes := vaRead s (instAt s x.inst) (xferVa x k) n
  modXfer (reportVa s x.inst (xferVa x k) n) x.id fun x => { x with data := x.data ++ bytes }

/-- A read of memory goes on with the next unit when `n` of the `left` bytes that waited end the present one at byte `stop`. -/
def readOn (s : State) (x : Transfer) (stop left n : Nat) : State :=
  if n = left ∧ stop < x.len then readStage s x stop else s

/-- Bytes have come out of the port spine: toward the host they wait for PCIe slots, any other read has them. -/
def spineOut (s : State) (x : Transfer) (n stop : Nat) : State :=
  match x.kind with
  | .image | .send _ _ => modXfer s x.id fun x => { x with moved := x.moved + n }
  | _ => waitFor s x (pcieCal s 1) n stop

/-- Bytes and one request go to the discard sink of port die `n` (R364). -/
def toSink (s : State) (n bytes : Nat) : State :=
  modPci s n fun p => { p with sinkB := p.sinkB + BitVec.ofNat 32 bytes, sinkP := p.sinkP + 1 }

/-- `n` bytes come back from the host for an instance that has been reset: they go to the discard sink, and the tag is free once all
have come (R112, R364). -/
def sinkReturn (s : State) (x : Transfer) (n : Nat) : State :=
  let s1 := toSink (modXfer s x.id fun x => { x with pcie := x.pcie + n }) (serving s) n
  if x.len ≤ x.pcie + n then giveTag { s1 with xfers := s1.xfers.filter fun y => y.id != x.id } x.inst else s1

/-- `n` of the `left` bytes of a transfer that wait up to byte `stop` pass the unit of calendar `cal`: PCIe, spine, HBM on the way
in; HBM, spine, PCIe on the way out (R354). -/
def moveDma (s : State) (xid cal stop left n : Nat) : State :=
  match s.xfers.find? (fun x => x.id == xid) with
  | none => s
  | some x =>
    let k := stop - left
    let hbm := (unitDie s x.inst (xferVa x k)).2
    match x.kind, calClass cal with
    | .dmaIn, 5 => if x.dead then sinkReturn s x n else spineStage (modXfer s xid fun x => { x with pcie := x.pcie + n }) x k n
    | .dmaIn, 2 =>
      let s1 := modXfer s xid fun x => { x with spine := x.spine + n }
      if hbm then waitFor s1 x (calUnit cal / 2) n (k + n) else modXfer s1 xid fun x => { x with moved := x.moved + n }
    | .dmaIn, _ => modXfer s xid fun x => { x with moved := x.moved + n }
    | _, 1 => readOn (waitFor (readFor s x k n) x (spineCal (calUnit cal) 1) n (k + n)) x stop left n
    | _, 2 =>
      let s1 := modXfer (if hbm then s else readFor s x k n) xid fun x => { x with spine := x.spine + n }
      spineOut (if hbm then s1 else readOn s1 x stop left n) x n (k + n)
    | _, _ =>
      emit (modXfer s xid fun x => { x with moved := x.moved + n, pcie := x.pcie + n })
        (.hostWrite (x.host + x.moved) ((x.data.drop x.moved).take n))

/-- DRAW_ENTROPY draws `n` bytes of conditioned class A output (R356), and they go to the host in the instance's PCIe slots. -/
def drawEntropy (s : State) (xid n : Nat) : State :=
  match s.xfers.find? (fun x => x.id == xid) with
  | none => s
  | some x =>
    let w := freshWords s (n / 4)
    waitFor (modXfer (modEnt w.2 fun e => { e with pool := e.pool - 8 * n }) xid fun x =>
      { x with data := x.data ++ w.1.flatMap (fun v => leBytes 4 v.toNat) }) x (pcieCal s 1) n (x.data.length + n)

/-- Take every waiting entry of a transfer out of the calendars. -/
def dropXferItems (s : State) (xid : Nat) : State :=
  { s with cals := mmap {} (fun _ k => { k with queue := k.queue.filter (fun it =>
      match it.kind with | .dma id _ => id != xid | .entropy id => id != xid | _ => true) }) s.cals }

/-- RESULT of a transfer: bytes moved, or records copied (R358). -/
def xferResult (x : Transfer) : Nat := if x.kind = .trace then x.moved / 32 else x.moved

/-- A transfer is no longer in progress. -/
def dropXfer (s : State) (id : Nat) : State := dropXferItems { s with xfers := s.xfers.filter (fun y => y.id != id) } id

/-- DMA_IN into a window has failed when its hedge is RUNNING as it ends: the access is refused and nothing is written (R269). -/
def lateWindow (s : State) (x : Transfer) : Bool :=
  x.kind == .dmaIn && (instAt s x.inst).st == .running && !(hostRangeOk (instAt s x.inst) true x.va x.len)

/-- A transfer ends with a status (R351, R357, R358): what DMA_IN moved reaches memory at once, or at the next OPEN while
the hedge is RUNNING (R32); TRACE_READ advances SUA_TRTAIL past the records it copied. -/
def endTransfer (s : State) (x : Transfer) (status : Nat) : State :=
  let s1 := giveTag (dropXfer s x.id) x.inst
  if lateWindow s x then bump (finishDesc s1 x.ring x.seq 0x04 0) (pgHbcI x.inst) 0
  else
    let s2 := match x.kind with
      | .dmaIn =>
        if (instAt s x.inst).st = .running then
          modInst s1 x.inst fun i => { i with inputs := i.inputs ++ [(x.va, x.data.take x.moved)] }
        else vaWrite s1 x.inst x.va (x.data.take x.moved)
      | .trace =>
        modInst s1 x.inst fun i => { i with ann := { i.ann with trTail := (i.ann.trTail + x.moved / 32) % 2 ^ i.ann.trSize } }
      | _ => s1
    finishDesc s2 x.ring x.seq status (xferResult x)

/-- The transfer is that of a descriptor that is still in progress. -/
def ofDesc (x : Transfer) : Bool := match x.kind with | .image => false | .send _ _ => false | _ => !x.dead

/-- TRANSFER_DONE: every byte has moved; the completion is posted or held (R351, R360). -/
def execTransferDone (id : Nat) (s : State) : Result :=
  .next <| match s.xfers.find? (fun x => x.id == id) with
    | some x => if x.moved = x.len ∧ ofDesc x then endTransfer s x x.status else s
    | none => s

/-- HOST_COMPLETION_TIMEOUT: a host read's timeout ends its DMA_IN with HOST_ERROR (R340). After a reset of its instance it only frees
the tag (R112). -/
def execHostCompletionTimeout (id : Nat) (s : State) : Result :=
  .next <| match s.xfers.find? (fun x => x.id == id) with
    | some x =>
      if x.kind = .dmaIn ∧ x.pcie < x.len then
        bump (if x.dead then giveTag (dropXfer s x.id) x.inst else endTransfer s x 0x05) (pgPort (serving s) 1) 4
      else s
    | none => s

/-- What arrived by the cutoff becomes visible at OPEN (R32). -/
def publishInputs (s : State) (id : Nat) : State :=
  (instAt s id).inputs.foldl (fun t p => vaWrite t id p.1 p.2) (modInst s id fun i => { i with inputs := [] })

/-! ### The host links (R342) -/

/-- PCIE_LINK_DOWN: a link enters DL_Down. -/
def execPcieLinkDown (link : Fin 2) (s : State) : Result :=
  .next (touch (modPci s link.val fun p => { p with up := false, speed := 0, width := 0 }) (pgPort link.val 1))

/-- PCIE_LINK_UP: a link enters DL_Up with a speed and a width (R340). -/
def execPcieLinkUp (link : Fin 2) (speed : BitVec 4) (width : BitVec 5) (s : State) : Result :=
  .next <|
    if 1 ≤ speed.toNat ∧ speed.toNat ≤ 5 ∧ (width = 4 ∨ width = 8 ∨ width = 16) then
      touch (modPci s link.val fun p => { p with up := true, speed := speed, width := width }) (pgPort link.val 1)
    else s

/-- Every RUNNING hedge goes HELD at the next boundary with cause 4 (R342). -/
def holdAllHost (s : State) : State :=
  (s.insts.map (·.1)).foldl (fun t i => if (instAt t i).st = .running then holdAtBoundary t i 4 else t) s

/-- The register reads whose completions have not left on P0 are lost with the link. -/
def dropReadCpls (s : State) : State :=
  { s with
    regQueue := []
    cals := mmap {} (fun _ k => { k with queue := k.queue.filter fun it =>
      match it.kind with | .readCpl _ _ _ => false | _ => true }) s.cals }

/-- Fail over to P1 (R342): hedges HELD, transfers on P0 end with LINK_LOST, service moves. -/
def failOver (s : State) : State :=
  let s0 := (s.xfers.filter (·.dead)).foldl (fun t x => giveTag (dropXfer t x.id) x.inst) (dropReadCpls s)
  let s1 := (s0.xfers.filter ofDesc).foldl (fun t x => endTransfer t x 0x06) s0
  let s2 := holdAllHost { s1 with failedOver := true }
  logErr (bump s2 (pgPort 1 1) 5)
    { sev := .hold, srcType := 0x20, srcInst := 1, code := 0x7002, inst := 0, detail := 0 }

/-- HOST_LINK_FAILOVER: P0 has been in DL_Down for 1 ms (R342); the device never fails back. -/
def execHostLinkFailover (s : State) : Result :=
  .next (if s.failedOver ∨ (pciAt s 0).up then s else failOver s)

/-- FAILOVER_FORCE: PCI_FAILCTL.FORCE on P1's page (R342). -/
def execFailoverForce (s : State) : Result :=
  .next (bar0Write s (pgPort 1 1) fun t => if t.failedOver then t else failOver t)

/-- P1_LINK_LOST while P1 serves: every hedge HELD, no further failover (R342). -/
def execP1LinkLost (s : State) : Result :=
  .next <|
    if s.failedOver then
      logErr (holdAllHost (modPci s 1 fun p => { p with up := false, speed := 0, width := 0 }))
        { sev := .hold, srcType := 0x20, srcInst := 1, code := 0x7002, inst := 0, detail := 1 }
    else s

/-- VF_ENABLE: the host enables or disables VF n (R343). -/
def execVfEnable (h : InstId) (on : Bool) (s : State) : Result :=
  .next (if h.val = 0 then s else modInst s h.val fun i => { i with vfEnabled := on })

end Sys2Proof.Machine
end

