-- ==== Sys2Proof/Machine/Links.lean ====
section
/-! DEFINITION. Machine/Links.lean: network ports and the Kaluri transport (13_links.md): frames out and their egress slots, sorting
received frames, PFC, PTP, flows, channels and keys, receiving and acknowledging packets, planned sends, retransmission, aborts
and the links themselves. The receive buffer of a port die is its queue of sorted frames and its deliveries (entry 15). -/

namespace Sys2Proof.Machine

/-! ### Network byte order (R9) -/

/-- A value in `n` bytes, the most significant first. -/
def beBytes (n v : Nat) : List Byte := (leBytes n v).reverse

/-- The value of bytes of which the first is the most significant. -/
def beNat (l : List Byte) : Nat := leNat l.reverse

/-- Field of `n` bytes from byte `k` on. -/
def beField (l : List Byte) (k n : Nat) : Nat := beNat ((l.drop k).take n)

/-- The sum of the 16-bit words that an Internet checksum adds. -/
def sum16 : List Byte → Nat
  | [] => 0
  | [a] => a.toNat * 256
  | a :: b :: l => a.toNat * 256 + b.toNat + sum16 l

/-- That sum over a UDP datagram with its pseudo-header, a checksum of 0 in it (R299). -/
def udpSum (ipv6 : Bool) (src dst : BitVec 128) (srcPort dstPort : BitVec 16) (payload : List Byte) : Nat :=
  let n := if ipv6 then 16 else 4
  sum16 (beBytes n src.toNat ++ beBytes n dst.toNat) + 17 + 2 * (8 + payload.length) + srcPort.toNat + dstPort.toNat + sum16 payload

/-- The checksum of a datagram over IPv6, never 0; over IPv4 the device sends 0 (R299). -/
def udpCheck (ipv6 : Bool) (src dst : BitVec 128) (srcPort dstPort : BitVec 16) (payload : List Byte) : BitVec 16 :=
  if ipv6 then BitVec.ofNat 16 (65535 - udpSum ipv6 src dst srcPort dstPort payload % 65535) else 0

/-- A received checksum is 0 or right (R299). -/
def udpOk (u : Udp) : Bool :=
  u.check == 0 || (udpSum u.ipv6 u.src u.dst u.srcPort u.dstPort u.payload + u.check.toNat) % 65535 == 0

/-! ### Flows (R312) and channels (R313) -/

/-- A flow entry decoded (Table — Flow entry). -/
structure FlowView where
  valid : Bool
  ipv6 : Bool
  protect : Bool
  vlanEn : Bool
  vid : Nat
  pcp : Nat
  dscp : Nat
  subport : Nat
  localInst : Nat
  remoteInst : Nat
  rxShare : Nat
  remoteIncarn : Word
  peerMac : BitVec 48
  peerIp : Nat
  keyActive : Bool
  deriving DecidableEq, Repr

def flowView (k : Ktp) (f : Nat) : FlowView :=
  let w (n : Nat) : Nat := (mget k.flows 0 (f * 12 + n)).toNat
  { valid := bit (w 0) 0, ipv6 := bit (w 0) 1, protect := bit (w 0) 2, vlanEn := bit (w 0) 3, vid := bits (w 0) 15 4,
    pcp := bits (w 0) 18 16, dscp := bits (w 0) 24 19, subport := bits (w 0) 26 25,
    localInst := bits (w 1) 7 0, remoteInst := bits (w 1) 15 8, rxShare := bits (w 1) 31 16 * 1024,
    remoteIncarn := mget k.flows 0 (f * 12 + 2), peerMac := BitVec.ofNat 48 (w 3 + 2 ^ 32 * w 4),
    peerIp := if bit (w 0) 1 then wordsAt k.flows (f * 12 + 5) 4 else w 5, keyActive := bit (w 9) 0 }

/-- The priority of a flow's frames: its PCP, or 0 when they are untagged (R298, R301; entry 59). -/
def flowPrio (v : FlowView) : Nat := if v.vlanEn then v.pcp else 0

def flowXAt (k : Ktp) (f : Nat) : FlowX := mget k.flowX {} f
def modFlowX (s : State) (n f : Nat) (g : FlowX → FlowX) : State :=
  modKtp s n fun k => { k with flowX := mmod k.flowX {} f g }

/-- A channel entry decoded (Table — Channel entry). -/
structure ChanView where
  opn : Bool
  send : Bool
  ordered : Bool
  failed : Bool
  aborted : Bool
  flow : Nat
  port : Nat
  remoteChan : Nat
  pmax : Nat
  region : Nat
  regionLen : Nat
  countLine : Nat
  deriving DecidableEq, Repr

def chanView (i : Inst) (c : Nat) : ChanView :=
  let w (n : Nat) : Nat := (mget i.chans 0 (c * 8 + n)).toNat
  { opn := bit (w 0) 0, send := bit (w 0) 1, ordered := bit (w 0) 2, failed := bit (w 0) 3, aborted := bit (w 0) 4,
    flow := bits (w 0) 13 8, port := bits (w 0) 15 14, remoteChan := bits (w 0) 27 16, pmax := 64 * (bits (w 1) 6 0 + 1),
    region := wordsAt i.chans (c * 8 + 2) 2, regionLen := 64 * w 4, countLine := wordsAt i.chans (c * 8 + 6) 2 }

def chanXAt (i : Inst) (c : Nat) : ChanX := mget i.chanX {} c
def modChanX (s : State) (h c : Nat) (g : ChanX → ChanX) : State :=
  modInst s h fun i => { i with chanX := mmod i.chanX {} c g }

/-- Set or clear a status bit of a channel entry: FAILED is bit 3, ABORTED bit 4. -/
def setChanBit (s : State) (h c n : Nat) (on : Bool) : State :=
  modInst s h fun i => { i with chans := mmod i.chans 0 (c * 8) fun w =>
    if on then w ||| (1 <<< n) else w &&& ~~~((1 : Word) <<< n) }

def pgEth (n : Nat) : Nat := pgPort n 2

/-- Count a packet dropped for an instance: KTP_DROPPED. -/
def countDrop (s : State) (h : Nat) : State :=
  if 1 ≤ h ∧ h ≤ 64 then modInst s h fun i => { i with dropped := i.dropped + 1 } else s

/-! ### Frames out -/

/-- Not LOCKED: the UNLOCKED flag of what the device sends (R42, R309). -/
def unlockedNow (s : State) : Bool := !s.tck.locked

/-- Bytes of a Kaluri frame: Ethernet, tag, IP, UDP, KT header, payload, GCM tag and FCS (R309). -/
def ktBytes (s : State) (n f : Nat) (payload : Nat) : Nat :=
  let v := flowView (ktpAt s n) f
  let b := 14 + (if v.vlanEn then 4 else 0) + (if v.ipv6 then 40 else 20) + 8 + 32 + payload +
    (if v.protect then 16 else 0) + 4
  Nat.max 64 b

/-- A port's own IP address. -/
def ownIp (s : State) (n : Nat) (v6 : Bool) : BitVec 128 := if v6 then (ethAt s n).ipv6 else (ethAt s n).ipv4.setWidth 128

/-- A Kaluri packet of flow `f` on port `n` (R309). -/
def ktPacket (s : State) (n f typ chan : Nat) (psn : Word) (off : Word64) (payload : List Byte) (retx : Bool) : KtPacket :=
  let v := flowView (ktpAt s n) f
  { ver := 1, typ := BitVec.ofNat 4 typ, unlocked := unlockedNow s, prot := v.protect, keyId := v.keyActive, retx := retx,
    srcInst := v.localInst, dstInst := v.remoteInst, channel := chan, srcIncarn := (instAt s v.localInst).incarn,
    dstIncarn := v.remoteIncarn, psn := psn, offset := off, tick := (instAt s v.localInst).htick.setWidth 32,
    payload := payload, ipv6 := v.ipv6, srcIp := ownIp s n v.ipv6, srcPort := BitVec.ofNat 16 (0xC000 + f), authOk := true }

/-- The 32-byte KT header (Table — Kaluri transport header). -/
def ktHeader (p : KtPacket) : List Byte :=
  [BitVec.ofNat 8 (p.ver.toNat * 16 + p.typ.toNat),
   BitVec.ofNat 8 (b2n p.unlocked + 2 * b2n p.prot + 4 * b2n p.keyId + 8 * b2n p.retx)] ++
  beBytes 2 p.payload.length ++ beBytes 1 p.srcInst ++ beBytes 1 p.dstInst ++ beBytes 2 (p.channel % 4096) ++
  beBytes 4 p.srcIncarn.toNat ++ beBytes 4 p.dstIncarn.toNat ++ beBytes 4 p.psn.toNat ++ beBytes 8 p.offset.toNat ++
  beBytes 4 p.tick.toNat

/-- The Kaluri packet that a datagram holds, its payload as GCM opens it when it is protected; none when the datagram has not the
length that its header states, or a payload that R309 does not allow. -/
def parseKt (u : Udp) : Option KtPacket :=
  let b := u.payload
  let b0 := beField b 0 1
  let b1 := beField b 1 1
  let len := beField b 2 2
  let prot := bit b1 1
  let text := if prot then u.opened.getD [] else b.drop 32
  if b.length ≠ 32 + len + (if prot then 16 else 0) ∨ 8192 < len ∨ len % 8 ≠ 0 ∨
      (if prot then u.opened.isSome && text.length != len else false) then none
  else some {
    ver := BitVec.ofNat 4 (b0 / 16), typ := BitVec.ofNat 4 b0, unlocked := bit b1 0, prot := prot, keyId := bit b1 2,
    retx := bit b1 3, srcInst := beField b 4 1, dstInst := beField b 5 1, channel := beField b 6 2 % 4096,
    srcIncarn := BitVec.ofNat 32 (beField b 8 4), dstIncarn := BitVec.ofNat 32 (beField b 12 4),
    psn := BitVec.ofNat 32 (beField b 16 4), offset := BitVec.ofNat 64 (beField b 20 8),
    tick := BitVec.ofNat 32 (beField b 28 4), payload := text, ipv6 := u.ipv6, srcIp := u.src, srcPort := u.srcPort,
    authOk := !prot || u.opened.isSome }

/-- The key and salt of a key slot (R325). -/
def keyAt (x : FlowX) (slot : Bool) : Option (BitVec 256 × Word) := if slot then x.key1 else x.key0

/-- The UDP payload that carries a packet: header and payload, on a protected flow encrypted and with its GCM tag (R309, R324). The
IV is SALT, the direction bit and the flow's transmit counter. -/
def ktDatagram (k : Ktp) (port f : Nat) (p : KtPacket) : List Byte :=
  let h := ktHeader p
  if !p.prot then h ++ p.payload
  else
    let x := flowXAt k f
    let key := (keyAt x p.keyId).getD (0, 0)
    let iv := key.2.toNat * 2 ^ 64 + b2n (Config.lowerModule port f) * 2 ^ 63 + x.txctr.toNat % 2 ^ 63
    let text := (List.range p.payload.length).map fun i => p.payload.getD i 0 ^^^ Config.gcmByte key.1.toNat iv i
    h ++ text ++ leBytes 16 (Config.gcmTag key.1.toNat iv (leNat h) 32 (leNat text) text.length).toNat

/-- A packet as it goes on the wire: tagged with the flow's VID and PCP or untagged, DF set, the UDP checksum 0 on IPv4 and computed
on IPv6, under the key slot that is active as it leaves (R298, R299, R309, R325). -/
def wireFrame (s : State) (n f : Nat) (p : KtPacket) : WireFrame :=
  let v := flowView (ktpAt s n) f
  let b := ktDatagram (ktpAt s n) n f { p with keyId := v.keyActive }
  let dst := BitVec.ofNat 128 v.peerIp
  { dstMac := v.peerMac, srcMac := (ethAt s n).mac, tag := if v.vlanEn then some (v.pcp, v.vid) else none, ipv6 := v.ipv6,
    dscp := v.dscp, dontFragment := !v.ipv6, srcIp := ownIp s n v.ipv6, dstIp := dst, srcPort := p.srcPort,
    dstPort := (ktpAt s n).udpPort, payload := b,
    check := udpCheck v.ipv6 (ownIp s n v.ipv6) dst p.srcPort (ktpAt s n).udpPort b }

/-- The frame that carries a Kaluri packet. -/
def ktFrame (s : State) (n f owner rank : Nat) (p : KtPacket) : TxFrame :=
  let v := flowView (ktpAt s n) f
  { id := s.nextFrame, owner := owner, rank := rank, prio := flowPrio v, bytes := ktBytes s n f p.payload.length,
    body := .kt f p, inst := v.localInst, sub := v.subport, send := 0, chan := 0 }

/-- A frame of management's, untagged (R303): PTP messages, and ARP and Neighbour Discovery replies. Each of them is shorter than a
slot (entry 59). -/
def mgmtFrame (s : State) (sub : Nat) (b : TxBody) : TxFrame :=
  { id := s.nextFrame, owner := 0, rank := 4, prio := 0, bytes := 128, body := b, inst := 0, sub := sub, send := 0, chan := 0 }

/-- The flow of a frame. -/
def frameFlow (f : TxFrame) : Option Nat := match f.body with | .kt fl _ => some fl | _ => none

/-- A send is refused when the flow's transmit counter stands at 2^48 under the active key (R325), or when that key slot of a
protected flow holds no key (entry 59). -/
def ctrSpent (s : State) (n f : Nat) : Bool :=
  let v := flowView (ktpAt s n) f
  let x := flowXAt (ktpAt s n) f
  v.protect && (decide (2 ^ 48 ≤ x.txctr.toNat) || (keyAt x v.keyActive).isNone)

/-- A frame is ready for the egress calendar of its port (R302). -/
def queueFrame (s : State) (n : Nat) (f : TxFrame) : State :=
  modEth { s with nextFrame := s.nextFrame + 1 } n fun e => { e with txq := e.txq ++ [f] }

/-- A frame leaves on a sub-port: a protected one takes the next value of its flow's transmit counter (R302, R324); a two-step Sync
is followed by its Follow_Up; a PTP message carries the time at which it left, in ns (R306, R307). -/
def sendFrame (s : State) (n sub : Nat) (f : TxFrame) : State :=
  let s1 := bump s (pgEth n) 0
  let mac := (ethAt s n).mac
  match f.body with
  | .kt fl p =>
    let s2 := emit s1 (.frame n sub (wireFrame s n fl p))
    if (flowView (ktpAt s n) fl).protect then modFlowX s2 n fl fun x => { x with txctr := x.txctr + 1 } else s2
  | .arpReply ip m a => emit s1 (.arpReply n sub mac ip m a)
  | .neighbourReply ip m a => emit s1 (.neighbourReply n sub mac ip m a)
  | .ptp k d t o c =>
    let w := freshWords s1 2
    let s2 := emit w.2 (.ptp n sub k d t o c (w.1.getD 0 0 ++ w.1.getD 1 0))
    let s3 := if k = .delayReq then bump s2 9 1 else s2
    if k = .sync ∧ !o then queueFrame s3 n (mgmtFrame s3 sub (.ptp .followUp d t o c)) else s3

/-- The instance has a planned frame ready on the port (R303). -/
def plannedReady (s : State) (n h : Nat) : Bool := (ethAt s n).txq.any (fun f => f.owner == h && decide (f.rank ≤ 1))

/-- The channels of an instance that a flow of port `n` carries. -/
def chansOfFlow (i : Inst) (n f : Nat) : List Nat :=
  (List.range 64).filter fun c => let v := chanView i c; v.opn && v.port == n && v.flow == f

/-- A send channel transmits nothing (R318): it is closed, has failed, or its flow's peer has ended the incarnation (R115). -/
def chanSilent (s : State) (h c : Nat) : Bool :=
  let v := chanView (instAt s h) c
  !v.opn || !v.send || v.failed || (flowXAt (ktpAt s v.port) v.flow).aborted

/-! ### Egress slots (R302, R303, R318) -/

/-- The egress calendar of a port. -/
def egressCal (n : Nat) : Nat := 84 + n

/-- The port runs in split mode. -/
def isSplit (s : State) (n : Nat) : Bool := decide ((ethAt s n).modeNow = 1)

/-- Wire time in ns of a frame with its preamble and inter-frame gap (R302): 400 Gb/s, or 100 Gb/s in split mode. -/
def frameNs (split : Bool) (f : TxFrame) : Nat := if split then ((f.bytes + 20) * 2 + 24) / 25 else (f.bytes + 20 + 49) / 50

/-- The sub-port of a frame. -/
def frameSub (split : Bool) (f : TxFrame) : Nat := if split then f.sub else 0

/-- The owner of a slot as frames name it: unowned slots are management's (R490). -/
def egressOwner (o : Nat) : Nat := if o = 0xFF then 0 else o

/-- The frames of a slot's owner that are ready on a sub-port, a flow whose transmit counter is spent left out (R325). -/
def framesReady (s : State) (n o sub : Nat) (split : Bool) : List TxFrame :=
  (ethAt s n).txq.filter fun f =>
    f.owner == egressOwner o && frameSub split f == sub && !(match frameFlow f with | some fl => ctrSpent s n fl | none => false)

/-- The first frame of the lowest rank: boundary frames, then the packets of sends in their order, then the rest (R303). -/
def firstRank (l : List TxFrame) : Option TxFrame :=
  (List.range 5).findSome? fun r => l.find? fun f => f.rank == r

/-- A frame of an honoured pause waits (R301). -/
def framePaused (s : State) (n : Nat) (f : TxFrame) : Bool := (ethAt s n).paused.getLsbD f.prio

/-- A planned frame that an honoured pause holds at its slot: plan divergence of its instance's tick (R301). -/
def pausedPlanned (s : State) (n : Nat) (l : List TxFrame) : State :=
  match l.find? fun f => framePaused s n f && decide (f.rank ≤ 1) with
  | some f => divergeFault s f.inst
  | none => s

/-- A frame's time passes and nothing leaves: its send's channel transmits nothing (R318), or it carries an incarnation that the
instance no longer has (R115). -/
def sendSilenced (s : State) (f : TxFrame) : Bool :=
  match f.body with
  | .kt _ p => p.srcIncarn != (instAt s f.inst).incarn || (f.rank == 1 && chanSilent s f.inst f.chan)
  | _ => false

/-- Slot `m` of the port's egress calendar takes a frame at a sub-port. -/
def markUsed (s : State) (n b : Nat) : State :=
  modCal s (egressCal n) fun k => { k with used := k.used ||| (1 <<< b) }

/-- A packet of a send channel leaves at `ns` (R321). -/
def stampSent (s : State) (h c : Nat) (psn : Word) (ns : Nat) : State :=
  modChanX s h c fun x => { x with
    unacked := x.unacked.map fun q => if q.psn = psn then { q with sentAt := some ns } else q }

/-- A frame starts in slot `m`: it leaves the queue, occupies the wire, and is sent unless it is silenced (R302, R317, R318). -/
def startFrame (s : State) (n sub m : Nat) (f : TxFrame) : State :=
  let s1 := modEth s n fun e => { e with
    txq := e.txq.filter fun g => g.id != f.id, txBusy := mset e.txBusy 0 sub (frameNs (isSplit s n) f - 32) }
  let s2 := markUsed s1 n sub
  let s3 := match f.body with
    | .kt _ p => if f.rank = 1 then stampSent s2 f.inst f.chan p.psn (slotStart (egressCal n) m) else s2
    | _ => s2
  if sendSilenced s f then s3 else sendFrame s3 n sub f

/-- A slot of the egress calendar at one sub-port: the frame on the wire goes on, or the owner's first frame starts when the run
holds its whole wire time (R302). -/
def egressSub (n o m : Nat) (s : State) (sub : Nat) : State :=
  let busy := mget (ethAt s n).txBusy 0 sub
  let split := isSplit s n
  if busy ≠ 0 then markUsed (modEth s n fun e => { e with txBusy := mset e.txBusy 0 sub (busy - 32) }) n sub
  else if !((ethAt s n).up.getLsbD sub) then s
  else
    let l := framesReady s n o sub split
    let s1 := pausedPlanned s n l
    match firstRank (l.filter fun f => !(framePaused s n f)) with
    | some f => if frameNs split f ≤ runNs s (egressCal n) m 1024 then startFrame s1 n sub m f else s1
    | none => s1

/-- Slot `m` of the tick on a port's egress calendar: in split mode it serves all four sub-ports at once (R302). In a slot of an
instance that idles nothing starts (R104, R380). -/
def egressSlot (s : State) (n m : Nat) : State :=
  let o := slotOwner s (egressCal n) m
  let s1 := if plannedReady s n o then markUsed s n 4 else s
  (if isSplit s n then [0, 1, 2, 3] else [0]).foldl (egressSub n (if ownerIdles s o then 0x41 else o) m) s1

/-- The egress slot in progress on a port, by its number in the tick. -/
def slotNow (s : State) (n : Nat) : Option Nat :=
  let b := (calAt s (egressCal n)).begun
  if b = 0 then none else some (b - 1)

/-- An unplanned frame of an instance may start in slot `m`, in progress on the port (R302, R303): the instance owns the slot and had
no planned frame ready at its start, no frame has started on the sub-port in it, the link is up, no honoured pause holds the
frame, and the run holds its wire time. -/
def unplannedRoom (s : State) (n h m : Nat) (f : TxFrame) : Bool :=
  let used := (calAt s (egressCal n)).used
  let sub := frameSub (isSplit s n) f
  slotOwner s (egressCal n) m == h && !(ownerIdles s h) && !(used.testBit 4) && !(used.testBit sub) && (ethAt s n).up.getLsbD sub &&
    !(framePaused s n f) && decide (frameNs (isSplit s n) f ≤ runNs s (egressCal n) m 1024)

/-- An acknowledgement or a retransmission leaves in slot `m`. -/
def startUnplanned (s : State) (n m : Nat) (f : TxFrame) : State :=
  startFrame { s with nextFrame := s.nextFrame + 1 } n (frameSub (isSplit s n) f) m f

/-! ### Sorting received frames (R297–R301) -/

/-- The flow of a received packet (R311): by source address, UDP source port and SRC_INST, and the instance it is for. -/
def flowOfPkt (k : Ktp) (p : KtPacket) : Option Nat :=
  (List.range 64).find? fun f =>
    let v := flowView k f
    v.valid && v.ipv6 == p.ipv6 && v.peerIp == p.srcIp.toNat && v.remoteInst == p.srcInst && v.localInst == p.dstInst &&
      p.srcPort.toNat / 64 == 0xC000 / 64

/-- Bytes of a flow's packets in the receive buffer (R304): those not yet looked at, and those on their way to memory. -/
def flowOccupancy (s : State) (n f : Nat) : Nat :=
  ((ethAt s n).rxq.map fun b => match b with
    | .kt p => if flowOfPkt (ktpAt s n) p = some f then p.payload.length else 0
    | _ => 0).sum +
  (s.deliveries.map fun d => match d.what with
    | .kt m g _ => if m = n ∧ g = f then d.data.length - d.moved else 0
    | _ => 0).sum

/-- The flows mapped to priority `q` on a port. -/
def flowsOfPrio (s : State) (n q : Nat) : List Nat :=
  (List.range 64).filter fun f => let v := flowView (ktpAt s n) f; v.valid && flowPrio v == q

/-- Generate or release PFC for priority `q` (R301). -/
def pfcStep (s : State) (n q : Nat) : State :=
  let e := ethAt s n
  let fl := flowsOfPrio s n q
  let share := (fl.map fun f => (flowView (ktpAt s n) f).rxShare).sum
  let occ := (fl.map fun f => flowOccupancy s n f).sum
  if !(e.gen.getLsbD q) ∨ share = 0 then s
  else if !(e.pfcOn.getLsbD q) ∧ e.xoff.toNat * share ≤ 100 * occ then
    emit (modEth s n fun e => { e with pfcOn := e.pfcOn ||| (1 <<< q) }) (.pfc n q true)
  else if e.pfcOn.getLsbD q ∧ 100 * occ ≤ e.xon.toNat * share then
    emit (modEth s n fun e => { e with pfcOn := e.pfcOn &&& ~~~((1 : BitVec 8) <<< q) }) (.pfc n q false)
  else s

def pfcAll (s : State) (n : Nat) : State := (List.range 8).foldl (fun t q => pfcStep t n q) s

/-- Drop a frame that is none of the kinds the port takes: ETH_RXOTHER (R300). -/
def rxOther (s : State) (n : Nat) : State := touch (modEth s n fun e => { e with rxOther := e.rxOther + 1 }) (pgEth n)

/-- Put a sorted frame into the receive buffer. -/
def rxPut (s : State) (n : Nat) (b : FrameBody) : State := modEth s n fun e => { e with rxq := e.rxq ++ [b] }

/-- The key slot that a packet names is valid (R325). -/
def keyValid (x : FlowX) (slot : Bool) : Bool := (keyAt x slot).isSome

/-- A packet fails authentication on its flow (R311, R324): on a protected flow it comes before any other check. -/
def authBad (k : Ktp) (f : Nat) (p : KtPacket) : Bool :=
  if (flowView k f).protect then !p.prot || !p.authOk || !(keyValid (flowXAt k f) p.keyId) else p.prot

/-- A packet that failed authentication is dropped and counted (R324). -/
def countAuth (s : State) (h : Nat) : State := modInst s h fun i => { i with authFail := i.authFail + 1 }

/-- A Kaluri packet is sorted (R304, R309–R311): another VER or TYPE is dropped, and so is one whose flow's receive share
is full. -/
def sortKt (s : State) (n : Nat) (p : KtPacket) : State :=
  let other := decide (p.ver ≠ 1 ∨ p.typ.toNat = 0 ∨ 6 < p.typ.toNat)
  match flowOfPkt (ktpAt s n) p with
  | none => if other then countDrop s p.dstInst else rxPut s n (.kt p)
  | some f =>
    if authBad (ktpAt s n) f p then countAuth s p.dstInst
    else if other ∨ (flowView (ktpAt s n) f).rxShare < flowOccupancy s n f + p.payload.length then countDrop s p.dstInst
    else pfcAll (rxPut s n (.kt p)) n

/-- A channel matches a packet (R328). -/
def snsMatch (s : State) (x : Sns) (p : SensorPkt) : Bool :=
  x.bound && x.bind.port.toNat == p.port.val &&
    (!(isSplit s p.port.val) || x.bind.subport == p.subport) && p.dstIp == ownIp s p.port.val p.ipv6 &&
    x.bind.ipv6 == p.ipv6 && x.bind.udpPort == p.udpPort && x.bind.src == p.src &&
    (match p.vlan with | some v => x.bind.vlanEn && x.bind.vid == v | none => !x.bind.vlanEn)

/-- A datagram as a sensor packet. -/
def sensorOf (n : PortId) (f : EthFrame) (u : Udp) : SensorPkt :=
  { port := n, subport := f.sub, dstIp := u.dst, udpPort := u.dstPort, src := u.src, ipv6 := u.ipv6, vlan := f.tags.head?,
    payload := u.payload, ptpNs := f.ptpNs, offsetNs := f.offsetNs }

/-- A PTP message goes to the clock when it comes on the port and over the transport that PTP_CFG selects (R306). -/
def sortPtp (s : State) (n transport : Nat) (m : PtpMsg) : State :=
  if s.ptp.port.toNat = n ∧ s.ptp.transport.toNat = transport then rxPut s n (.ptp m) else s

/-- Sort a datagram (R300, R306, R309): matching a sensor channel comes before the Kaluri transport and PTP (R328). -/
def sortUdp (s : State) (n : PortId) (f : EthFrame) (u : Udp) : State :=
  let p := sensorOf n f u
  if (List.range 16).any fun c => snsMatch s (snsAt s c) p then rxPut s n.val (.sensor p)
  else if u.dstPort = (ktpAt s n.val).udpPort then
    match parseKt u with
    | some p => sortKt s n.val p
    | none => rxOther s n.val
  else match u.ptp with
    | some m => if u.dstPort = 319 ∨ u.dstPort = 320 then sortPtp s n.val (b2n u.ipv6) m else rxOther s n.val
    | none => rxOther s n.val

/-- ETH_FRAME_RECEIVE: a frame is checked, counted, and sorted or dropped (R297–R300). -/
def execEthFrameReceive (n : PortId) (f : EthFrame) (s : State) : Result :=
  .next <|
    if !((ethAt s n.val).up.getLsbD (if isSplit s n.val then f.sub.toNat else 0)) then s
    else
      let s0 := modEth s n.val fun e => { e with fecCorr := e.fecCorr + BitVec.ofNat 32 f.fecCorrected }
      if f.fecLost then modEth s0 n.val fun e => { e with fecUncorr := e.fecUncorr + 1 }
      else
        let s1 := bump s0 (pgEth n.val) 1
        if !f.fcsOk then bump s1 (pgEth n.val) 2
        else if 9216 < f.length ∨ 2 ≤ f.tags.length then bump s1 (pgEth n.val) 3
        else if f.length < 64 ∨ f.ipOptions ∨ f.fragment then rxOther s1 n.val
        else match f.body with
          | .pause => bump s1 (pgEth n.val) 4
          | .pfc => bump (rxPut s1 n.val .pfc) (pgEth n.val) 5
          | .other => rxOther s1 n.val
          | .udp u => if udpOk u then sortUdp s1 n f u else rxOther s1 n.val
          | .ptp m => sortPtp s1 n.val 2 m
          | .arp a mac ip => rxPut s1 n.val (.arp f.sub a mac ip)
          | .neighbour a mac ip => rxPut s1 n.val (.neighbour f.sub a mac ip)

/-- Take the first received frame that `p` picks out of the receive buffer. -/
def takeFrame (s : State) (n : Nat) (p : FrameBody → Bool) : Option (FrameBody × State) :=
  match (ethAt s n).rxq.find? p with
  | some b => some (b, modEth s n fun e => { e with rxq := e.rxq.eraseP p })
  | none => none

def isArp : FrameBody → Bool | .arp .. => true | _ => false
def isNd : FrameBody → Bool | .neighbour .. => true | _ => false
def isPfc : FrameBody → Bool | .pfc => true | _ => false
def isPtp : FrameBody → Bool | .ptp _ => true | _ => false
def isSensor : FrameBody → Bool | .sensor _ => true | _ => false

/-- Queue a frame of management's (R303). -/
def queueMgmt (s : State) (n sub : Nat) (b : TxBody) : State := queueFrame s n (mgmtFrame s sub b)

/-- ARP_REQUEST: one for the port's own IPv4 address is answered, in a management slot (R300, R303). -/
def execArpRequest (n : PortId) (s : State) : Result :=
  .next <| match takeFrame s n.val isArp with
    | some (.arp sub target mac ip, t) =>
      if target = (ethAt s n.val).ipv4 then queueMgmt t n.val sub.toNat (.arpReply target mac ip) else t
    | _ => s

/-- NEIGHBOUR_SOLICITATION: one for the port's own IPv6 address is answered, in a management slot (R300, R303). -/
def execNeighbourSolicitation (n : PortId) (s : State) : Result :=
  .next <| match takeFrame s n.val isNd with
    | some (.neighbour sub target mac ip, t) =>
      if target = (ethAt s n.val).ipv6 then queueMgmt t n.val sub.toNat (.neighbourReply target mac ip) else t
    | _ => s

/-- PFC_RECEIVE: the priorities that ETH_PFC.HONOR names are held at the frame boundary (R301). -/
def execPfcReceive (n : PortId) (prios : BitVec 8) (s : State) : Result :=
  .next <| match takeFrame s n.val isPfc with
    | some (_, t) => modEth t n.val fun e => { e with paused := e.paused ||| (prios &&& e.honor) }
    | none => s

/-- PFC_PAUSE_EXPIRY: the paused priority resumes (R301). -/
def execPfcPauseExpiry (n : PortId) (prio : Fin 8) (s : State) : Result :=
  .next (modEth s n.val fun e => { e with paused := e.paused &&& ~~~((1 : BitVec 8) <<< prio.val) })

/-! ### PTP (R306–R308) -/

/-- The PTP page. -/
def pgPtp : Nat := 9

/-- clockClass 248 while in holdover (R308). -/
def clockClass (s : State) : Option Nat := if s.tck.holdover then some 248 else none

/-- Queue a PTP message of the clock's, in its domain and over its transport, on the selected port (R303, R306, R308). -/
def queuePtp (s : State) (k : PtpTx) : State :=
  queueMgmt s s.ptp.port.toNat 0 (.ptp k s.ptp.domain s.ptp.transport s.ptp.oneStep (clockClass s))

/-- What a PTP message of the clock's domain does (R306): offset and path delay from its four timestamps, of a two-step Sync with
its Follow_Up; the grandmaster and the state of the default BMCA, which RXONLY keeps from time-transmitter; a management SET is
ignored and counted. -/
def ptpProcess (s : State) (m : PtpMsg) : State :=
  match m.kind with
  | .sync =>
    touch (bump (if m.twoStep then s else modPtp s fun p => { p with offset := m.t2 - m.t1 - p.delay }) pgPtp 0) pgPtp
  | .followUp => touch (modPtp s fun p => { p with offset := m.t2 - m.t1 - p.delay }) pgPtp
  | .delayResp =>
    touch (modPtp s fun p => { p with
      delay := (m.t2 - m.t1 + (m.t4 - m.t3)) / 2, offset := (m.t2 - m.t1 - (m.t4 - m.t3)) / 2 }) pgPtp
  | .announce =>
    let st := if s.ptp.rxOnly ∧ (m.bmcaState = 5 ∨ m.bmcaState = 6) then 4 else m.bmcaState
    let t := touch (modPtp s fun p => { p with gmId := m.gmId, state := st }) pgPtp
    if st = s.ptp.state then t else bump t pgPtp 3
  | .mgmtSet => bump s pgPtp 2
  | .delayReq => if s.ptp.state = 6 then queuePtp s .delayResp else s
  | .other => s

/-- PTP_MESSAGE_RECEIVE: the oldest PTP message on the selected port; one of another domain changes nothing (R306). -/
def execPtpMessageReceive (s : State) : Result :=
  .next <| match takeFrame s s.ptp.port.toNat isPtp with
    | some (.ptp m, t) => if m.domain = s.ptp.domain then ptpProcess t m else t
    | _ => s

/-- PTP_MESSAGE_TRANSMIT: Delay_Req is queued by a time receiver, Sync and Announce by a time transmitter (R306, R308); the Follow_Up
of a two-step Sync is queued as that leaves, a Delay_Resp as the request arrives. -/
def execPtpMessageTransmit (k : PtpTx) (s : State) : Result :=
  .next <| match k with
    | .delayReq => if s.ptp.state = 9 ∨ s.ptp.state = 8 then queuePtp s k else s
    | .sync | .announce => if s.ptp.state = 6 then queuePtp s k else s
    | .followUp | .delayResp => s

/-- PTP_CFG_WRITE: a change of PORT waits for the boundary and clears LOCKED there (R308). -/
def writePtpCfg (v : Word) (s : State) : State :=
  modPtp s fun p => { p with
    domain := v.extractLsb' 0 7, portStaged := some (v.extractLsb' 8 2), transport := v.extractLsb' 10 2,
    oneStep := v.getLsbD 12, rxOnly := v.getLsbD 13 }

def execPtpCfgWrite (v : Word) (s : State) : Result := .next (bar0Write s pgPtp (writePtpCfg v))

/-- The staged PTP port at a boundary (R308). -/
def applyPtpPort (s : State) : State :=
  match s.ptp.portStaged with
  | none => s
  | some p =>
    let t := modPtp s fun x => { x with port := p, portStaged := none }
    if p = s.ptp.port then t else modTck t relock

/-! ### Receiving packets (R311, R314, R321–R324) -/

/-- What the checks of R311 and R324 say of a packet: dropped for authentication, dropped otherwise, absorbed by the discard
sink of a resetting instance (R112), or accepted on a flow. -/
inductive PktVerdict where
  | authFail (h : Nat)
  | drop (h : Nat)
  | sink (h : Nat)
  | ok (f : Nat) (h : Nat)
  deriving DecidableEq, Repr

/-- Check a packet (R311): its flow by source address, port and SRC_INST; on a protected flow authentication comes first;
then the incarnations, an ABORT's against SRC_INCARN only. -/
def checkPkt (s : State) (n : Nat) (p : KtPacket) : PktVerdict :=
  let k := ktpAt s n
  match flowOfPkt k p with
  | none => .drop p.dstInst
  | some f =>
    let v := flowView k f
    if authBad k f p then .authFail v.localInst
    else if (instAt s v.localInst).st = .resetting ∧ p.typ ≠ 6 then .sink v.localInst
    else if p.srcIncarn ≠ v.remoteIncarn then .drop v.localInst
    else if p.typ ≠ 5 ∧ p.dstIncarn ≠ (instAt s v.localInst).incarn then .drop v.localInst
    else if p.typ ≠ 5 ∧ (flowXAt k f).aborted then .drop v.localInst
    else .ok f v.localInst

/-- The effect of a verdict other than acceptance. -/
def verdictDrop (s : State) (n : Nat) (p : KtPacket) : PktVerdict → State
  | .authFail h => countAuth s h
  | .drop h => countDrop s h
  | .sink _ => toSink s n p.payload.length
  | .ok _ _ => s

/-- A PSN lies before the next expected one (PSNs wrap modulo 2^32). -/
def psnBefore (a b : Word) : Bool := (a - b).msb

/-- Advance the contiguous prefix over PSNs received ahead: the next expected PSN and the end of its bytes (R293, R314). -/
def absorb : Nat → Word → Nat → List (Word × Nat) → Word × Nat × List (Word × Nat)
  | 0, psn, e, l => (psn, e, l)
  | k + 1, psn, e, l =>
    match l.find? (fun a => a.1 == psn) with
    | some a => absorb k (psn + 1) a.2 (l.filter (fun b => b.1 != psn))
    | none => (psn, e, l)

/-- Count a packet once, at `ns` (R293, R314, R319): a counted channel adds its bytes; an ordered one grows its contiguous prefix. -/
def countPkt (x : ChanX) (ordered : Bool) (ns : Nat) (p : KtPacket) : ChanX :=
  let off := p.offset.toNat + p.payload.length
  let (psn, e, ahead) :=
    if p.psn = x.psn then absorb x.ahead.length (x.psn + 1) off x.ahead else (x.psn, x.bytes.toNat, x.ahead ++ [(p.psn, off)])
  { x with
    psn := psn, ahead := ahead, ackAt := x.ackAt.orElse fun _ => some (ns : Int), unlocked := p.unlocked
    packets := x.packets + 1
    bytes := if ordered then BitVec.ofNat 64 e else x.bytes + BitVec.ofNat 64 p.payload.length }

/-- The whole range lies in plain segments (R314): valid segments, no window line, no window buffer. -/
def plainRange (i : Inst) (va len : Nat) : Bool :=
  (List.range ((va % unit2M + len + unit2M - 1) / unit2M)).all fun u =>
    let a := Nat.max va ((va / unit2M + u) * unit2M)
    (findWin i a).isNone && !(inBuffer i a) && (findSeg i a).isSome

/-- Where a data packet lands in its channel's region: offset for COUNTED, offset mod length for ORDERED; none when it would
extend beyond (R314). -/
def landing (c : ChanView) (p : KtPacket) : Option Nat :=
  let off := if c.ordered then (if c.regionLen = 0 then 0 else p.offset.toNat % c.regionLen) else p.offset.toNat
  if off + p.payload.length ≤ c.regionLen then some (c.region + off) else none

/-- A packet with this PSN has been received on the channel already: counted, or on its way to memory (R314). -/
def isDuplicate (s : State) (h ch : Nat) (psn : Word) : Bool :=
  let x := chanXAt (instAt s h) ch
  psnBefore psn x.psn || x.ahead.any (fun a => a.1 == psn) ||
    s.deliveries.any fun d => d.inst == h && match d.what with | .kt _ _ q => q.channel == ch && q.psn == psn | _ => false

/-- The receive channel is the packet's: open, of its kind, on its flow, and not ended by an abort (R313, R314, R323). -/
def takesPkt (s : State) (n f h : Nat) (p : KtPacket) : Bool :=
  let c := chanView (instAt s h) p.channel
  c.opn && !c.send && c.ordered == (p.typ == 2) && c.flow == f && c.port == n && !c.aborted && decide (p.channel < 64)

/-- How many of `n` bytes from byte `k` of a delivery on go to the same 2 MiB unit. -/
def deliverRun (d : Delivery) (k n : Nat) : Nat := Nat.min n (unitLeft (d.va + k))

/-- `n` bytes of a delivery, from byte `k` on, wait for the instance's port-spine slots into their dies (R305, R339): at most two
units. -/
def deliverStage (s : State) (d : Delivery) (k n : Nat) : State :=
  let m := deliverRun d k n
  let wait (t : State) (a b : Nat) : State := enqueue t (spineCal (unitDie s d.inst (d.va + a)).1 0)
    { owner := d.inst, kind := .deliver d.id (a + b), left := b, planned := true }
  let s1 := if m = 0 then s else wait s k m
  if m < n then wait s1 (k + m) (n - m) else s1

/-- A packet is in memory: it is counted in its channel, unless an abort or a close has come first (R305, R314, R323). -/
def countArrival (s : State) (h ns : Nat) (p : KtPacket) : State :=
  let c := chanView (instAt s h) p.channel
  if c.opn ∧ !c.send ∧ !c.aborted then modChanX s h p.channel fun x => countPkt x c.ordered ns p else s

/-- The start of the egress slot in progress on a port, in ns after the boundary. -/
def egressNs (s : State) (n : Nat) : Nat := slotStart (egressCal n) ((slotNow s n).getD 0)

/-- An accepted data packet waits for its instance's port-spine slots, to be written and counted there exactly once (R305, R314). One
with no payload is counted at once. -/
def receiveData (s : State) (n f h : Nat) (p : KtPacket) : State :=
  if !(takesPkt s n f h p) ∨ isDuplicate s h p.channel p.psn then countDrop s h
  else match landing (chanView (instAt s h) p.channel) p with
    | none => countDrop s h
    | some va =>
      if !(plainRange (instAt s h) va p.payload.length) then countDrop s h
      else if p.payload = [] then countArrival s h (egressNs s n) p
      else
        let d : Delivery := { id := s.nextXfer, inst := h, va := va, data := p.payload, written := p.payload.length, moved := 0,
                              what := .kt n f p }
        deliverStage { s with deliveries := s.deliveries ++ [d], nextXfer := s.nextXfer + 1 } d 0 d.data.length

/-- The Kaluri packets of some types. -/
def isKt (t : KtPacket → Bool) : FrameBody → Bool | .kt p => t p | _ => false

/-- Take the first received Kaluri packet of some types, check it, and act on it when it is accepted. -/
def withPkt (s : State) (n : Nat) (types : KtPacket → Bool) (act : State → Nat → Nat → KtPacket → State) : State :=
  match takeFrame s n (isKt types) with
  | some (.kt p, t) =>
    match checkPkt t n p with
    | .ok f h => pfcAll (act t f h p) n
    | v => pfcAll (verdictDrop t n p v) n
  | _ => s

/-- KT_PACKET_RECEIVE: a COUNTED or ORDERED packet (R305, R314). -/
def execKtPacketReceive (n : PortId) (s : State) : Result :=
  .next (withPkt s n.val (fun p => p.typ == 1 || p.typ == 2) fun t f h p => receiveData t n.val f h p)

/-- The SACK bitmap of a channel: bit i set when PSN + 1 + i was received (R309, R319). -/
def sackMap (x : ChanX) : Word64 :=
  (List.range 64).foldl (fun m i =>
    if x.ahead.any (fun a => a.1 == x.psn + 1 + BitVec.ofNat 32 i) then m ||| (1 <<< i) else m) 0

/-- A packet is acknowledged: before the next PSN expected, or in the SACK bitmap (R321). -/
def acked (p : KtPacket) (psn : Word) : Bool :=
  psnBefore psn p.psn ||
    (decide ((psn - p.psn).toNat < 65 ∧ psn ≠ p.psn) && p.offset.getLsbD ((psn - p.psn).toNat - 1))

/-! ### Planned sends (R315–R318, R320) -/

/-- Drop the deliveries of an instance, and what of them waits in the calendars. -/
def dropDeliveries (s : State) (p : Delivery → Bool) : State :=
  let ids := (s.deliveries.filter p).map (·.id)
  { s with
    deliveries := s.deliveries.filter fun d => !(p d)
    cals := mmap {} (fun _ k => { k with queue := k.queue.filter fun it =>
      match it.kind with | .deliver id _ => !(ids.contains id) | .relay id => !(ids.contains id) | _ => true }) s.cals }

/-- The transfer reads the source of a send of the instance. -/
def isSendOf (h : Nat) (x : Transfer) : Bool := x.inst == h && match x.kind with | .send _ _ => true | _ => false

/-- A send of a channel that transmits nothing only counts its packets (R318). -/
def countSilent (s : State) (h chan packets : Nat) : State :=
  modChanX s h chan fun x => { x with psn := x.psn + BitVec.ofNat 32 packets }

/-- A due send entry (R315, R316, R318): the read of its source starts. ALT advances the destination by the length on odd sends;
an ordered channel appends to its stream. -/
def releaseSend (h n : Nat) (s : State) (e : SendEntry) : State :=
  let c := chanView (instAt s h) e.chan.val
  if e.k = 0 ∨ n % e.k ≠ 0 ∨ !c.opn ∨ !c.send ∨ e.len = 0 then s
  else
    let base := if c.ordered then (chanXAt (instAt s h) e.chan.val).stream
      else e.dstOff.toNat + if e.alt ∧ n / e.k % 2 = 1 then e.len else 0
    let s1 := if c.ordered then modChanX s h e.chan.val fun x => { x with stream := x.stream + e.len } else s
    if chanSilent s h e.chan.val then countSilent s1 h e.chan.val ((e.len + c.pmax - 1) / c.pmax)
    else
      let x := newXfer s1 (.send e.chan.val base) h e.src.toNat e.len
      readStage (addXfer s1 x) x 0

/-- At the commit point of tick n the due sends are released (R316). -/
def releaseSends (s : State) (h : Nat) : State :=
  match (instAt s h).plan with
  | some l => l.plan.sends.foldl (releaseSend h (instAt s h).htick.toNat) s
  | none => s

/-- A packet of a send goes into the retransmit store and, planned, toward the port (R316). -/
def releasePkt (s : State) (h chan send off : Nat) (data : List Byte) : State :=
  let c := chanView (instAt s h) chan
  let x := chanXAt (instAt s h) chan
  let p := ktPacket s c.port c.flow (if c.ordered then 2 else 1) c.remoteChan x.psn (BitVec.ofNat 64 off) data false
  modChanX (queueFrame s c.port { ktFrame s c.port c.flow h 1 p with send := send, chan := chan }) h chan fun x => { x with
    psn := x.psn + 1
    unacked := x.unacked ++ [{ psn := x.psn, offset := BitVec.ofNat 64 off, data := data, tries := 0, sentAt := none }] }

/-- The first send of the instance whose source is being read packs what it has into packets of at most PMAX, in plan order (R303,
R316); `k` packets at most. A 65th unacknowledged packet waits, and that is divergence (R320). -/
def packSends (h : Nat) : Nat → State → State
  | 0, s => s
  | k + 1, s =>
    match s.xfers.find? (isSendOf h) with
    | none => s
    | some x =>
      match x.kind with
      | .send chan base =>
        let size := Nat.min (chanView (instAt s h) chan).pmax (x.len - x.pcie)
        let next (t : State) : State := packSends h k (modXfer t x.id fun y => { y with pcie := y.pcie + size })
        if size = 0 then packSends h k (dropXfer s x.id)
        else if x.moved < x.pcie + size then s
        else if chanSilent s h chan then next (countSilent s h chan 1)
        else if 64 ≤ (chanXAt (instAt s h) chan).unacked.length then divergeFault s h
        else next (releasePkt s h chan x.id (base + x.pcie) ((x.data.drop x.pcie).take size))
      | _ => s

/-- Pack the sends of an instance as far as they have been read: 64 B at least a packet. -/
def packAll (s : State) (h : Nat) : State :=
  packSends h ((s.xfers.filter (isSendOf h)).map fun x => x.len / 64 + 2).sum s

/-- The sends of an instance that have not all been transmitted, by their ids (R317). -/
def sendsLeft (s : State) (h : Nat) : List Nat :=
  ((s.xfers.filter (isSendOf h)).map (·.id) ++
    (List.range 4).flatMap fun n => ((ethAt s n).txq.filter fun f => f.inst == h && f.rank == 1).map (·.send)).dedup

/-- The packets of a channel of which none has left are taken out of the retransmit store. -/
def dropUnsent (s : State) (h : Nat) : State :=
  modInst s h fun i => { i with chanX := mmap {} (fun _ x => { x with
    unacked := x.unacked.filter fun q => q.sentAt.isSome }) i.chanX }

/-- The sends of an instance are given up: reads, packets that have not left, and their frames. -/
def dropSends (s : State) (h : Nat) : State :=
  let s1 := (s.xfers.filter (isSendOf h)).foldl (fun t x => dropXfer t x.id) s
  dropUnsent ((List.range 4).foldl (fun t n => modEth t n fun e =>
    { e with txq := e.txq.filter (fun f => !(f.inst == h && f.rank == 1)) }) s1) h

/-- Sends of the last commit that are still not transmitted are abandoned at this commit point and counted (R317). -/
def abandonSends (s : State) (h : Nat) : State :=
  modInst (dropSends s h) h fun i => { i with sendLate := i.sendLate + BitVec.ofNat 32 (sendsLeft s h).length }

/-! ### Acknowledging and retransmitting (R319–R321) -/

/-- The frame and packet of a retransmission (R321). -/
def retxFrame (s : State) (h ch : Nat) (q : SentPkt) : TxFrame :=
  let c := chanView (instAt s h) ch
  { ktFrame s c.port c.flow h 2
      (ktPacket s c.port c.flow (if c.ordered then 2 else 1) c.remoteChan q.psn q.offset q.data true) with chan := ch }

/-- A packet has not been acknowledged for 50 µs after its last transmission, at `ns` (R321). -/
def retxDue (q : SentPkt) (ns : Nat) : Bool :=
  match q.sentAt with | some t => decide (t + 50000 ≤ ns) | none => false

/-- An instance has a retransmission due on a port, which goes before its acknowledgements (R303). -/
def retxWaits (s : State) (n h ns : Nat) : Bool :=
  (List.range 64).any fun ch =>
    let c := chanView (instAt s h) ch
    !(chanSilent s h ch) && c.port == n && !(ctrSpent s n c.flow) &&
      (chanXAt (instAt s h) ch).unacked.any fun q => retxDue q ns && decide (q.tries < 8)

/-- A receive channel has a packet whose acceptance an ACK at `ns` may cover: it lies 0.5 µs back (R319). -/
def ackReady (s : State) (h ch ns : Nat) : Bool :=
  let c := chanView (instAt s h) ch
  c.opn && !c.send && match (chanXAt (instAt s h) ch).ackAt with | some t => decide (t + 500 ≤ ns) | none => false

/-- No channel of the instance on the port with a lower index awaits an ACK (R319). -/
def ackFirst (s : State) (h ch ns : Nat) : Bool :=
  (List.range ch).all fun d => !(ackReady s h d ns && (chanView (instAt s h) d).port == (chanView (instAt s h) ch).port)

/-- The ACK of a receive channel (R319). -/
def ackFrame (s : State) (h ch : Nat) : TxFrame :=
  let c := chanView (instAt s h) ch
  let x := chanXAt (instAt s h) ch
  ktFrame s c.port c.flow h 3 (ktPacket s c.port c.flow 4 c.remoteChan x.psn (sackMap x) [] false)

/-- The ACK of a channel may leave in slot `m` of its port: one ACK a slot, after every retransmission, in ascending channel index
(R303, R319). -/
def ackMay (s : State) (h ch m : Nat) : Bool :=
  let n := (chanView (instAt s h) ch).port
  let ns := slotStart (egressCal n) m
  ackReady s h ch ns && ackFirst s h ch ns && !((calAt s (egressCal n)).used.testBit 5) && !(retxWaits s n h ns) &&
    !(ctrSpent s n (chanView (instAt s h) ch).flow) && (instAt s h).st != .resetting && unplannedRoom s n h m (ackFrame s h ch)

/-- KT_ACK_SEND: the ACK of a receive channel leaves in the port's egress slot in progress (R302, R303, R319). -/
def execKtAckSend (h : InstId) (ch : Fin 64) (s : State) : Result :=
  .next <|
    let n := (chanView (instAt s h.val) ch.val).port
    match slotNow s n with
    | some m =>
      if ackMay s h.val ch.val m then
        modChanX (markUsed (startUnplanned s n m (ackFrame s h.val ch.val)) n 5) h.val ch.val fun x => { x with ackAt := none }
      else s
    | none => s

/-- KT_ACK_RECEIVE releases acknowledged packets from the retransmit store, and packets that waited for room go into it (R320,
R321). -/
def execKtAckReceive (n : PortId) (s : State) : Result :=
  .next (withPkt s n.val (fun p => p.typ == 4) fun t f h p =>
    let c := chanView (instAt t h) p.channel
    if c.opn ∧ c.send ∧ c.flow = f ∧ c.port = n.val ∧ p.channel < 64 then
      packAll (modChanX t h p.channel fun x => { x with unacked := x.unacked.filter (fun q => !(acked p q.psn)) }) h
    else countDrop t h)

/-- A channel fails (R321): it sends nothing further, and the event is reported, under a code that the spec does not give. -/
def failChannel (s : State) (h ch : Nat) : State :=
  let s1 := touch (setChanBit (burn s 1) h ch 3 true) (pgKtpI h)
  logErr s1 { sev := .note, srcType := 0x22, srcInst := 0x100 + h, code := Config.freeNat s.fresh % 65536, inst := h, detail := ch }

/-- A packet has gone once more at `ns` (R321). -/
def countRetx (s : State) (h ch : Nat) (psn : Word) (ns : Nat) : State :=
  modInst (modChanX s h ch fun x => { x with
      unacked := x.unacked.map (fun r => if r.psn = psn then { r with tries := r.tries + 1, sentAt := some ns } else r) }) h
    fun i => { i with retx := i.retx + 1 }

/-- KT_RETRANSMIT: a packet unacknowledged for 50 µs goes again with RETX set, in the port's egress slot in progress; after 8
retransmissions the channel is FAILED and sends nothing further (R302, R303, R321). -/
def execKtRetransmit (h : InstId) (ch : Fin 64) (psn : Word) (s : State) : Result :=
  .next <|
    let c := chanView (instAt s h.val) ch.val
    let n := c.port
    match slotNow s n, (chanXAt (instAt s h.val) ch.val).unacked.find? (fun q => q.psn == psn) with
    | some m, some q =>
      let ns := slotStart (egressCal n) m
      if chanSilent s h.val ch.val ∨ !(retxDue q ns) then s
      else if 8 ≤ q.tries then failChannel s h.val ch.val
      else if ctrSpent s n c.flow ∨ !(unplannedRoom s n h.val m (retxFrame s h.val ch.val q)) then s
      else countRetx (startUnplanned s n m (retxFrame s h.val ch.val q)) h.val ch.val psn ns
    | _, _ => s

/-- The times that the channels hold are counted from the boundary that comes (R319, R321). -/
def ageKt (ns : Nat) (s : State) : State :=
  { s with insts := mmap {} (fun _ i => { i with chanX := mmap {} (fun _ x => { x with
      ackAt := x.ackAt.map (· - ns)
      unacked := x.unacked.map fun q => { q with sentAt := q.sentAt.map (· - ns) } }) i.chanX }) s.insts }

/-! ### Aborts (R112, R323) -/

/-- Drop the queued and unacknowledged sends of an instance's flow (R115, R323): the sends whose sources are being read only count
their packets from here on (R318). -/
def dropFlowSends (s : State) (n f h : Nat) : State :=
  let s1 := (chansOfFlow (instAt s h) n f).foldl (fun t c => modChanX t h c fun x => { x with unacked := [] }) s
  modEth s1 n fun e => { e with txq := e.txq.filter (fun t => !(frameFlow t == some f && t.inst == h && decide (t.rank ≤ 3))) }

/-- A delivery on a flow of a port. -/
def onFlow (n f : Nat) (d : Delivery) : Bool := match d.what with | .kt m g _ => m == n && g == f | _ => false

/-- The answer to an authenticated ABORT, in management slots (R303, R323). -/
def sendAbortAck (s : State) (n f : Nat) : State :=
  queueFrame s n (ktFrame s n f 0 4 (ktPacket s n f 6 0 0 0 [] false))

/-- What an ABORT that names the flow's REMOTE_INCARN does (R323): ABORTED on the flow's receive channels, its sends and what has
not reached memory dropped, later packets of the incarnation dropped. -/
def abortFlow (s : State) (n f h : Nat) : State :=
  let rx := (chansOfFlow (instAt s h) n f).filter (fun c => !(chanView (instAt s h) c).send)
  let s1 := rx.foldl (fun u c => setChanBit u h c 4 true) (dropDeliveries s (onFlow n f))
  modFlowX (dropFlowSends s1 n f h) n f fun x => { x with aborted := true }

/-- KT_ABORT_RECEIVE (R323): every authenticated ABORT is answered, one for a stale incarnation too. -/
def execKtAbortReceive (n : PortId) (s : State) : Result :=
  .next <| match takeFrame s n.val (isKt fun p => p.typ == 5) with
    | some (.kt p, t) =>
      match checkPkt t n.val p with
      | .ok f h => pfcAll (sendAbortAck (abortFlow t n.val f h) n.val f) n.val
      | .drop h =>
        match flowOfPkt (ktpAt t n.val) p with
        | some f => pfcAll (sendAbortAck t n.val f) n.val
        | none => pfcAll (countDrop t h) n.val
      | v => pfcAll (verdictDrop t n.val p v) n.val
    | _ => s

/-- ABORT_ACK_RECEIVE stops the resends to that peer (R112). -/
def execAbortAckReceive (n : PortId) (s : State) : Result :=
  .next (withPkt s n.val (fun p => p.typ == 6) fun t f h _ =>
    modInst t h fun i => { i with abortWait := i.abortWait.filter (fun a => a != (n.val, f)) })

/-- An abort frame that names the instance's incarnation, in management slots (R112). -/
def sendAbort (s : State) (n f : Nat) : State :=
  queueFrame s n (ktFrame s n f 0 4 (ktPacket s n f 5 0 0 0 [] false))

/-- ABORT_RESEND: every 50 µs to each peer that has not acknowledged, until B2 + 150 µs (R112). -/
def execAbortResend (h : InstId) (s : State) : Result :=
  .next <|
    let i := instAt s h.val
    if i.st = .resetting then i.abortWait.foldl (fun t a => sendAbort t a.1 a.2) s else s

/-! ### Links, flows, keys and channels -/

/-- The instances with a flow or a bound sensor channel on some sub-ports of a port. -/
def instsOnPort (s : State) (n : Nat) (subs : BitVec 4) : List Nat :=
  instIds.filter fun h =>
    (List.range 64).any (fun f =>
      let v := flowView (ktpAt s n) f
      v.valid && v.localInst == h && subs.getLsbD (if (ethAt s n).modeNow = 1 then v.subport else 0)) ||
    (List.range 16).any (fun c =>
      let x := snsAt s c
      x.bound && x.owner == h && x.bind.port.toNat == n &&
        subs.getLsbD (if (ethAt s n).modeNow = 1 then x.bind.subport.toNat else 0))

/-- ETH_LINK_DOWN: instances with flows or sensor channels on the port are held at the next boundary, cause 5 (R361). -/
def execEthLinkDown (n : PortId) (subs : BitVec 4) (s : State) : Result :=
  .next <|
    let s1 := touch (modEth s n.val fun e => { e with up := e.up &&& ~~~subs }) (pgEth n.val)
    let s2 := logErr s1 { sev := .hold, srcType := 0x21, srcInst := n.val, code := 0x7001, inst := 0, detail := n.val }
    (instsOnPort s n.val (subs &&& (ethAt s n.val).up)).foldl (fun t h => holdAtBoundary t h 5) s2

/-- ETH_LINK_UP: a RESUMED event for each of them; they resume on RUN (R361). A port that comes up from nothing has
restarted, and takes the written mode. -/
def execEthLinkUp (n : PortId) (subs : BitVec 4) (s : State) : Result :=
  .next <|
    let s1 := touch (modEth s n.val fun e =>
      { e with up := e.up ||| subs, modeNow := if e.up = 0 then e.mode else e.modeNow }) (pgEth n.val)
    (instsOnPort s n.val (subs &&& ~~~(ethAt s n.val).up)).foldl (fun t h => postEvent t h 3 0) s1

/-- The bits of flow word `w` that are RW. -/
def flowMask (w : Nat) : Word :=
  match w with | 0 => 0x07FFFFFF | 4 => 0x0000FFFF | 9 => 0x00000001 | 10 => 0 | 11 => 0 | _ => 0xFFFFFFFF

/-- The receive shares of a port die, in bytes, were word 1 of flow `f` to hold `v` (R304). -/
def sharesWith (k : Ktp) (f : Nat) (v : Word) : Nat :=
  ((List.range 64).map fun g => if g = f then bits v.toNat 31 16 * 1024 else (flowView k g).rxShare).sum

/-- FLOW_ENTRY_WRITE by management (R312): REMOTE_INCARN applies at the next boundary; KEY_VALID and TXCTR are read-only; a
switch of KEY_ACTIVE starts the transmit counter of the other key at 0 (entry 16). A share that would take the port die's sum
beyond 4 MiB is not taken (R304, entry 15). -/
def writeFlow (n f w : Nat) (v : Word) (s : State) : State :=
  if w = 2 then modFlowX s n f fun x => { x with staged := some v }
  else if w = 1 ∧ 4194304 < sharesWith (ktpAt s n) f v then s
  else
    let key := f * 12 + w
    let old := mget (ktpAt s n).flows 0 key
    let new := (v &&& flowMask w) ||| (old &&& ~~~(flowMask w))
    let s1 := modKtp s n fun k => { k with flows := mset k.flows 0 key new }
    if w = 9 ∧ new.getLsbD 0 ≠ old.getLsbD 0 then modFlowX s1 n f fun x => { x with txctr := 0 } else s1

def execFlowEntryWrite (n : PortId) (f : Fin 64) (w : Fin 12) (v : Word) (s : State) : Result :=
  .next (bar0Write s (pgPort n.val 3) (writeFlow n.val f.val w.val v))

/-- A staged REMOTE_INCARN applies at the boundary (R312). -/
def applyFlowIncarn (s : State) : State :=
  { s with ktp := mmap {} (fun _ k =>
      k.flowX.foldl (fun a p => match p.2.staged with
        | some v => { a with
            flows := mset a.flows 0 (p.1 * 12 + 2) v
            flowX := mset a.flowX {} p.1 { p.2 with staged := none, aborted := false } }
        | none => a) k) s.ktp }

/-- KEY_INSTALL: KFLOW and KSLOT install the staged key and salt, unless entropy is degraded (R256, R325). The key DRBG reseeds with 384
bits of class A output for it (R243; entry 59). -/
def installKey (n : Nat) (v : Word) (s : State) : State :=
  if s.ent.degraded ∨ !s.ent.keyDrbg then s
  else
    let k := ktpAt s n
    let f := (v.extractLsb' 0 6).toNat
    let slot := v.getLsbD 6
    let key : BitVec 256 := BitVec.ofNat 256 (wordsAt k.keyData 0 8)
    let s1 := modFlowX s n f fun x =>
      if slot then { x with key1 := some (key, k.salt) } else { x with key0 := some (key, k.salt) }
    let s2 := modKtp s1 n fun k => { k with
      flows := mmod k.flows 0 (f * 12 + 9) fun w => w ||| (if slot then 4 else 2) }
    bump (modEnt s2 fun e => { e with keyBits := e.keyBits + 384 }) pgEnt 4

def execKeyInstall (n : PortId) (v : Word) (s : State) : Result :=
  .next (bar0Write s (pgPort n.val 3) (installKey n.val v))

/-- The bits of channel word `w` that are RW. -/
def chanMask (w : Nat) : Word :=
  match w with | 0 => 0x0FFFFF07 | 1 => 0x0000007F | 5 => 0 | _ => 0xFFFFFFFF

/-- CHANNEL_ENTRY_WRITE: the host driver's change waits for the boundary (R313). -/
def writeChan (h k : Nat) (v : Word) (s : State) : State :=
  modInst s h fun i => { i with chanStaged := mset i.chanStaged none k (some (v &&& chanMask (k % 8))) }

def execChannelEntryWrite (h : InstId) (ch : Fin 64) (w : Fin 8) (v : Word) (s : State) : Result :=
  .next (if h.val = 0 then s else bar0Write s (pgKtpI h.val) (writeChan h.val (ch.val * 8 + w.val) v))

/-- The device refuses to open a channel (R313): its flow is not the instance's, the retransmit store has no room, or a
receive channel's port gives the instance no egress slot. -/
def openRefused (s : State) (h : Nat) (c : ChanView) : Bool :=
  let v := flowView (ktpAt s c.port) c.flow
  !v.valid || v.localInst != h ||
    (c.send && decide ((ktpAt s c.port).storeFree < 64 * c.pmax)) ||
    (!c.send && ownedSlots (calAt s (84 + c.port)).table h == 0)

/-- Apply the staged words of channel `c` of instance `h` (R313). `runB` says that the hedge is RUNNING at the boundary:
then changes to send channels are ignored. -/
def applyChannel (runB : Bool) (h : Nat) (s : State) (c : Nat) : State :=
  let i := instAt s h
  let old := chanView i c
  let words := (List.range 8).map fun w =>
    match mget i.chanStaged none (c * 8 + w) with
    | some v => v ||| (mget i.chans 0 (c * 8 + w) &&& ~~~(chanMask w))
    | none => mget i.chans 0 (c * 8 + w)
  let j : Inst := { i with
    chans := (List.range 8).foldl (fun m w => mset m 0 (c * 8 + w) (words.getD w 0)) i.chans
    chanStaged := (List.range 8).foldl (fun m w => mset m none (c * 8 + w) none) i.chanStaged }
  let new := chanView j c
  let drop : State := setInst s h { i with chanStaged := j.chanStaged }
  if runB ∧ (new.send ∨ old.send ∧ old.opn) then drop
  else
    let give (t : State) : State :=
      if old.opn ∧ old.send ∧ !new.opn then
        modKtp t old.port fun k => { k with storeFree := k.storeFree + 64 * old.pmax } else t
    if new.opn ∧ !old.opn then
      if openRefused s h new then
        setInst s h { j with chans := mmod j.chans 0 (c * 8) (· &&& 0xFFFFFFFE) }
      else
        let t := setInst s h { j with
          chans := mmod j.chans 0 (c * 8) (· &&& ~~~(0x18 : Word))
          chanX := mset j.chanX {} c { peerIncarn := (flowView (ktpAt s new.port) new.flow).remoteIncarn } }
        if new.send then modKtp t new.port fun k => { k with storeFree := k.storeFree - 64 * new.pmax } else t
    else give (setInst s h j)

/-- The channels of an instance with staged words. -/
def stagedChans (i : Inst) : List Nat := (i.chanStaged.map (fun p => p.1 / 8)).dedup

def applyChannels (runB : Nat → Bool) (s : State) : State :=
  (s.insts.map (·.1)).foldl (fun t h =>
    (stagedChans (instAt t h)).foldl (applyChannel (runB h) h) t) s

/-- At OPEN the count line of every receive channel is written as it stood at t0 (R293). -/
def countLineBytes (s : State) (i : Inst) (c : Nat) : List Byte :=
  let x := chanXAt i c
  leBytes 8 x.bytes.toNat ++ leBytes 8 x.packets.toNat ++ leBytes 4 x.peerIncarn.toNat ++
    leBytes 1 (b2n (chanView i c).aborted + 2 * b2n x.unlocked) ++ leBytes 3 0 ++ leBytes 8 s.tck.devTick.toNat ++
    leBytes 32 0

def writeCountLines (s : State) : State :=
  (s.insts.map (·.1)).foldl (fun t h =>
    ((List.range 64).filter (fun c => let v := chanView (instAt t h) c; v.opn && !v.send)).foldl (fun u c =>
      vaWrite u h (chanView (instAt u h) c).countLine (countLineBytes u (instAt u h) c)) t) s

end Sys2Proof.Machine
end

