-- ==== Sys2Proof/Machine/Float.lean ====
section
/-! DEFINITION. Machine/Float.lean: the number formats of the device and exact arithmetic on their values. A finite value is
±m × 2^e; every operation is exact and is rounded where a rule says so (R143–R148, R155, R167, R251). -/

namespace Sys2Proof.Machine

/-- A floating-point value. -/
inductive Fl where
  | nan
  | inf (neg : Bool)
  | fin (neg : Bool) (m : Nat) (e : Int)
  deriving DecidableEq, Repr

/-- A format: exponent bits, fraction bits, exponent bias, and whether it has infinities (E4M3 has none, R138). -/
structure Fmt where
  eb : Nat
  mb : Nat
  bias : Int
  hasInf : Bool
  deriving DecidableEq, Repr

def fp32 : Fmt := ⟨8, 23, 127, true⟩
def bf16 : Fmt := ⟨8, 7, 127, true⟩
def fp16 : Fmt := ⟨5, 10, 15, true⟩
def e4m3 : Fmt := ⟨4, 3, 7, false⟩
def e5m2 : Fmt := ⟨5, 2, 15, true⟩

/-- The canonical NaN of a format (R145). -/
def canonNan (f : Fmt) : Nat :=
  if f.hasInf then (2 ^ f.eb - 1) * 2 ^ f.mb + 2 ^ (f.mb - 1) else 2 ^ (f.eb + f.mb) - 1

/-- The magnitude bits of infinity; in E4M3, one beyond the largest finite magnitude. -/
def infBits (f : Fmt) : Nat := if f.hasInf then (2 ^ f.eb - 1) * 2 ^ f.mb else 2 ^ (f.eb + f.mb) - 1

/-- The value of a format's bits. -/
def decodeFl (f : Fmt) (w : Nat) : Fl :=
  let mag := w % 2 ^ (f.eb + f.mb)
  let neg := w.testBit (f.eb + f.mb)
  let ex := mag / 2 ^ f.mb
  let fr := mag % 2 ^ f.mb
  if f.hasInf && ex == 2 ^ f.eb - 1 then (if fr = 0 then .inf neg else .nan)
  else if !f.hasInf && mag == 2 ^ (f.eb + f.mb) - 1 then .nan
  else if ex = 0 then .fin neg fr (1 - f.bias - f.mb)
  else .fin neg (2 ^ f.mb + fr) (ex - f.bias - f.mb)

/-- How a value is rounded: to nearest even, or stochastically with 13 drawn bits (R148). -/
inductive Rnd where
  | rne
  | sr (u : Nat)
  deriving DecidableEq, Repr

/-- m × 2^e as a number of units 2^q, the remainder, and the divisor of the remainder. -/
def scaleTo (m : Nat) (e q : Int) : Nat × Nat × Nat :=
  if q ≤ e then (m * 2 ^ (e - q).toNat, 0, 1)
  else let d := 2 ^ (q - e).toNat
       (m / d, m % d, d)

/-- One unit more, by the rounding chosen (R148 steps 2 and 4). -/
def roundUp (r : Rnd) (lo rem d : Nat) : Bool :=
  match r with
  | .rne => decide (d < 2 * rem) || (decide (2 * rem = d) && decide (lo % 2 = 1))
  | .sr u => decide (u < rem * 8192 / d)

/-- m × 2^e rounded to a whole number of units 2^q. -/
def roundAt (r : Rnd) (m : Nat) (e q : Int) : Nat :=
  let (lo, rem, d) := scaleTo m e q
  if roundUp r lo rem d then lo + 1 else lo

/-- The exponent of the least significant bit that a format keeps of m × 2^e, its range unbounded above. -/
def ulpExp (f : Fmt) (m : Nat) (e : Int) : Int := max (1 - f.bias - f.mb) ((Nat.log2 m : Int) + e - f.mb)

/-- The magnitude bits of m × 2^e rounded to a format, and whether it lies beyond the largest finite magnitude (R155). -/
def roundMag (f : Fmt) (r : Rnd) (m : Nat) (e : Int) : Nat × Bool :=
  if m = 0 then (0, false)
  else
    let q := ulpExp f m e
    let n := roundAt r m e q
    let b := ((q + f.bias + f.mb) * (2 ^ f.mb : Nat) + n - (2 ^ f.mb : Nat)).toNat
    if infBits f ≤ b then (infBits f, true) else (b, false)

/-- Bits with a sign. -/
def withSign (f : Fmt) (neg : Bool) (mag : Nat) : Nat := (if neg then 2 ^ (f.eb + f.mb) else 0) + mag

/-- The bits of a value rounded to a format with infinities, and whether a finite value overflowed to ±∞. -/
def encodeFl (f : Fmt) (r : Rnd) : Fl → Nat × Bool
  | .nan => (canonNan f, false)
  | .inf n => (withSign f n (infBits f), false)
  | .fin n m e => let x := roundMag f r m e
                  (withSign f n x.1, x.2)

/-- Round a value to a format and read it back. -/
def roundFl (f : Fmt) (r : Rnd) (x : Fl) : Fl × Bool :=
  let y := encodeFl f r x
  (decodeFl f y.1, y.2)

/-- The value of a number of bits of FP32. -/
def f32 (w : Word) : Fl := decodeFl fp32 w.toNat

/-- FP32 bits of a value, rounded to nearest even. -/
def to32 (x : Fl) : Word := BitVec.ofNat 32 (encodeFl fp32 .rne x).1

/-- Round to FP32, to nearest even. -/
def rnd32 (x : Fl) : Fl := (roundFl fp32 .rne x).1

/-- A signed integer times 2^e as a value; zero is +0. -/
def ofInt (i : Int) (e : Int) : Fl := .fin (decide (i < 0)) i.natAbs e

/-- ±m as an integer. -/
def sgn (neg : Bool) (m : Nat) : Int := if neg then -(m : Int) else m

def flNeg : Fl → Fl
  | .nan => .nan
  | .inf n => .inf (!n)
  | .fin n m e => .fin (!n) m e

def isNan : Fl → Bool | .nan => true | _ => false
def isInf : Fl → Bool | .inf _ => true | _ => false
def isZero : Fl → Bool | .fin _ m _ => m == 0 | _ => false

/-- The exact sum, and whether it is invalid: a NaN operand, or ∞ − ∞ (R145, R167). An exact zero from operands that are
not both −0 is +0 (R145). -/
def flAdd (a b : Fl) : Fl × Bool :=
  match a, b with
  | .nan, _ => (.nan, true)
  | _, .nan => (.nan, true)
  | .inf x, .inf y => if x = y then (.inf x, false) else (.nan, true)
  | .inf x, .fin .. => (.inf x, false)
  | .fin .., .inf y => (.inf y, false)
  | .fin x m e, .fin y n f =>
    let q := min e f
    let i := sgn x (m * 2 ^ (e - q).toNat) + sgn y (n * 2 ^ (f - q).toNat)
    if i = 0 then (.fin (x && y && m == 0 && n == 0) 0 q, false) else (ofInt i q, false)

/-- The exact product, and whether it is invalid: a NaN operand, or 0 × ∞ (R145, R167). -/
def flMul (a b : Fl) : Fl × Bool :=
  match a, b with
  | .nan, _ => (.nan, true)
  | _, .nan => (.nan, true)
  | .inf x, .inf y => (.inf (x != y), false)
  | .inf x, .fin y n _ => if n = 0 then (.nan, true) else (.inf (x != y), false)
  | .fin x m _, .inf y => if m = 0 then (.nan, true) else (.inf (x != y), false)
  | .fin x m e, .fin y n f => (.fin (x != y) (m * n) (e + f), false)

/-- A quotient to 64 bits and a sticky bit, so that one rounding to any format is the rounding of the exact quotient; with
whether it is invalid and whether a finite nonzero value is divided by zero (R167). -/
def flDiv (a b : Fl) : Fl × Bool × Bool :=
  match a, b with
  | .nan, _ => (.nan, true, false)
  | _, .nan => (.nan, true, false)
  | .inf _, .inf _ => (.nan, true, false)
  | .inf x, .fin y _ _ => (.inf (x != y), false, false)
  | .fin x _ _, .inf y => (.fin (x != y) 0 0, false, false)
  | .fin x m e, .fin y n f =>
    if n = 0 then (if m = 0 then (.nan, true, false) else (.inf (x != y), false, true))
    else if m = 0 then (.fin (x != y) 0 0, false, false)
    else
      let k := 64 + Nat.log2 n
      let q := m * 2 ^ k / n
      let st := if m * 2 ^ k % n = 0 then 0 else 1
      (.fin (x != y) (2 * q + st) (e - f - k - 1), false, false)

/-- The integer square root, one bit at a time from bit `k − 1` down. -/
def isqrt : Nat → Nat → Nat → Nat
  | 0, _, r => r
  | k + 1, n, r => if (r + 2 ^ k) * (r + 2 ^ k) ≤ n then isqrt k n (r + 2 ^ k) else isqrt k n r

/-- A square root with a sticky bit, and whether it is invalid: NaN, or a negative nonzero value (R167). √−0 is −0. -/
def flSqrt (a : Fl) : Fl × Bool :=
  match a with
  | .nan => (.nan, true)
  | .inf true => (.nan, true)
  | .inf false => (.inf false, false)
  | .fin x m e =>
    if m = 0 then (.fin x 0 e, false)
    else if x then (.nan, true)
    else
      let odd := (e % 2).toNat
      let n := m * 2 ^ odd * 2 ^ 128
      let r := isqrt (Nat.log2 n / 2 + 1) n 0
      (.fin false (2 * r + if r * r = n then 0 else 1) ((e - odd) / 2 - 65), false)

/-- a < b, false with a NaN operand. -/
def flLt (a b : Fl) : Bool :=
  match a, b with
  | .nan, _ => false
  | _, .nan => false
  | .inf x, .inf y => x && !y
  | .inf x, .fin .. => x
  | .fin .., .inf y => !y
  | .fin x m e, .fin y n f =>
    let q := min e f
    decide (sgn x (m * 2 ^ (e - q).toNat) < sgn y (n * 2 ^ (f - q).toNat))

/-- a ≤ b, false with a NaN operand. -/
def flLe (a b : Fl) : Bool := !isNan a && !isNan b && !flLt b a

/-- The integer part of a finite value rounded to nearest even. -/
def flToInt : Fl → Int
  | .fin n m e => sgn n (roundAt .rne m e 0)
  | _ => 0

/-- An FP32 addition: rounded sum and the flags INVALID and FOVF. -/
def add32 (a b : Fl) : Fl × Bool × Bool :=
  let s := flAdd a b
  let r := roundFl fp32 .rne s.1
  (r.1, s.2, r.2)

/-- An FP32 multiplication: rounded product and the flags INVALID and FOVF. -/
def mul32 (a b : Fl) : Fl × Bool × Bool :=
  let s := flMul a b
  let r := roundFl fp32 .rne s.1
  (r.1, s.2, r.2)

/-! ### Elementary functions

The exact value is computed to well beyond FP32 in fixed point with 160 fraction bits and rounded; what the device returns
lies within 2 ulp of it (R154, R251), by a free error (Config.ulpError). -/

/-- 2^160. -/
def fxOne : Int := 2 ^ 160

/-- ln 2 × 2^160. -/
def fxLn2 : Int := 1013035739299659071135698605846798551586536899366

/-- A finite value as a fixed-point number. -/
def toFx : Fl → Int
  | .fin n m e => if 0 ≤ e + 160 then sgn n (m * 2 ^ (e + 160).toNat) else sgn n (m / 2 ^ (-(e + 160)).toNat)
  | _ => 0

/-- Σ r^k / k! of a fixed-point r, from the innermost term of the Horner form out. -/
def expSeries (r : Int) : Nat → Nat → Int
  | 0, _ => fxOne
  | n + 1, k => fxOne + r * expSeries r n (k + 1) / fxOne / ((k : Int) + 1)

/-- e^t of a fixed-point t as m × 2^e. -/
def expFx (t : Int) : Fl :=
  let k := (2 * t + fxLn2) / (2 * fxLn2)
  .fin false (expSeries (t - k * fxLn2) 40 0).toNat (k - 160)

/-- Σ t^(2k+1) / (2k+1), from the innermost term out. -/
def atanhSeries (t2 : Int) : Nat → Nat → Int
  | 0, _ => 0
  | n + 1, k => fxOne / (2 * (k : Int) + 1) + t2 * atanhSeries t2 n (k + 1) / fxOne

/-- ln of m × 2^e (m ≠ 0) as a fixed-point number. -/
def lnFx (m : Nat) (e : Int) : Int :=
  let k := Nat.log2 m
  let y := toFx (.fin false m (-(k : Int)))
  let (y, k) := if 2 * y > 3 * fxOne then (y / 2, k + 1) else (y, k)
  let t := (y - fxOne) * fxOne / (y + fxOne)
  2 * (t * atanhSeries (t * t / fxOne) 60 0 / fxOne) + (e + k) * fxLn2

/-- Finite values beyond ±1024 act as ±1024 where an exponential decides. -/
def clampFx (t : Int) : Int := if 1024 * fxOne < t then 1024 * fxOne else if t < -1024 * fxOne then -1024 * fxOne else t

/-- e^x. -/
def flExp : Fl → Fl
  | .nan => .nan
  | .inf false => .inf false
  | .inf true => .fin false 0 0
  | x => expFx (clampFx (toFx x))

/-- 1 / (1 + e^−x). -/
def flSigmoid : Fl → Fl
  | .nan => .nan
  | .inf n => if n then .fin false 0 0 else .fin false 1 0
  | x =>
    let t := clampFx (toFx x)
    let e := expFx t
    if t ≤ 0 then (flDiv e (flAdd (.fin false 1 0) e).1).1
    else (flDiv (.fin false 1 0) (flAdd (.fin false 1 0) (expFx (-t))).1).1

/-- tanh x; below 2^−13 by its series, whose next term lies beyond FP32. -/
def flTanh : Fl → Fl
  | .nan => .nan
  | .inf n => .fin n 1 0
  | .fin n m e =>
    if m = 0 then .fin n 0 e
    else if (Nat.log2 m : Int) + e < -13 then
      let t := toFx (.fin false (m * m) (2 * e))
      .fin n (m * (fxOne - t / 3 + 2 * (t * t / fxOne) / 15).toNat) (e - 160)
    else
      let x := expFx (clampFx (toFx (.fin true m (e + 1))))
      match (flDiv (flAdd (.fin false 1 0) (flNeg x)).1 (flAdd (.fin false 1 0) x).1).1 with
      | .fin _ a b => .fin n a b
      | y => y

/-- ln x, for x above 0. -/
def flLn : Fl → Fl
  | .nan => .nan
  | .inf _ => .inf false
  | .fin _ m e => if m = 0 then .inf true else ofInt (lnFx m e) (-160)

/-- A free error of at most 2 ulp (R154, R251): NaN, infinities and the sign stay. -/
def within2 (fn : Nat) (operand : Word) (x : Fl) : Word :=
  match x with
  | .fin n m e =>
    let b := (roundMag fp32 .rne m e).1
    let d := max (-2) (min 2 (Config.ulpError fn operand.toNat))
    BitVec.ofNat 32 (withSign fp32 n (min (((b : Int) + d).toNat) (infBits fp32)))
  | _ => to32 x

/-- Numbers of the elementary functions, as Config.ulpError names them. -/
def fnTanh : Nat := 0
def fnSigmoid : Nat := 1
def fnSilu : Nat := 2
def fnExp : Nat := 3
def fnLn : Nat := 4

end Sys2Proof.Machine
end

