-- ==== Sys2Proof/Machine/Flags.lean ====
section
/-! DEFINITION. Machine/Flags.lean: the flag computations: SPG_FLAGS of the FP instructions (R167), the command flag word of
the matrix engine (R158), the conversions that set them (R155, R167), and comparisons. -/

namespace Sys2Proof.Machine

/-- SPG_FLAGS: INVALID [0], DIVZ [1], FOVF [2], QLEFT [3]. -/
def spgFlags (invalid divz fovf : Bool) : BitVec 4 :=
  (if invalid then 1 else 0) ||| (if divz then 2 else 0) ||| (if fovf then 4 else 0)

/-- FADD, and FSUB of a negated operand: result and flags (R167). -/
def fpAdd (a b : Word) : Word × BitVec 4 :=
  let s := flAdd (f32 a) (f32 b)
  let e := encodeFl fp32 .rne s.1
  (BitVec.ofNat 32 e.1, spgFlags s.2 false e.2)

/-- The negation of FP32 bits. -/
def fpNeg (a : Word) : Word := a ^^^ 0x80000000

def fpMul (a b : Word) : Word × BitVec 4 :=
  let s := flMul (f32 a) (f32 b)
  let e := encodeFl fp32 .rne s.1
  (BitVec.ofNat 32 e.1, spgFlags s.2 false e.2)

/-- FMA: d + a × b with one rounding (R167). -/
def fpFma (d a b : Word) : Word × BitVec 4 :=
  let p := flMul (f32 a) (f32 b)
  let s := flAdd (f32 d) p.1
  let e := encodeFl fp32 .rne s.1
  (BitVec.ofNat 32 e.1, spgFlags (p.2 || s.2) false e.2)

def fpDiv (a b : Word) : Word × BitVec 4 :=
  let q := flDiv (f32 a) (f32 b)
  let e := encodeFl fp32 .rne q.1
  (BitVec.ofNat 32 e.1, spgFlags q.2.1 q.2.2 e.2)

def fpSqrt (a : Word) : Word × BitVec 4 :=
  let q := flSqrt (f32 a)
  let e := encodeFl fp32 .rne q.1
  (BitVec.ofNat 32 e.1, spgFlags q.2 false e.2)

/-- Saturate an integer to 32 bits. -/
def sat32 (i : Int) : Int := max (-(2 ^ 31 : Nat)) (min ((2 ^ 31 : Nat) - 1) i)

/-- FP32 to INT32 (R167): rounds to nearest even, saturates, NaN gives 0 with INVALID. -/
def fpToInt (a : Word) : Word × BitVec 4 :=
  match f32 a with
  | .nan => (0, spgFlags true false false)
  | .inf n => (if n then 0x80000000 else 0x7FFFFFFF, 0)
  | x => (BitVec.ofInt 32 (sat32 (flToInt x)), 0)

/-- A conversion between floating formats (R167): a NaN becomes the canonical NaN with INVALID; overflow sets FOVF. -/
def fpConv (src dst : Fmt) (a : Nat) : Word × BitVec 4 :=
  let x := decodeFl src a
  let e := encodeFl dst .rne x
  (BitVec.ofNat 32 e.1, spgFlags (isNan x) false e.2)

/-- FCVT by FN (Table — Instruction set); the spec gives FN 6 and above no operation, so their value is free. -/
def fpCvt (fn : Nat) (a : Word) : Word × BitVec 4 :=
  match fn with
  | 0 => fpToInt a
  | 1 => (to32 (ofInt a.toInt 0), 0)
  | 2 => fpConv fp32 bf16 a.toNat
  | 3 => fpConv fp32 fp16 a.toNat
  | 4 => fpConv bf16 fp32 (a.toNat % 65536)
  | 5 => fpConv fp16 fp32 (a.toNat % 65536)
  | _ => (Config.unstated 1 fn a.toNat, 0)

/-- FLT and FLE: 0 and INVALID with a NaN operand (R167). -/
def fpCmp (le : Bool) (a b : Word) : Bool × BitVec 4 :=
  let x := f32 a
  let y := f32 b
  (if le then flLe x y else flLt x y, spgFlags (isNan x || isNan y) false false)

/-- The conditions of CMP (Table — Instruction set), with the flags they set. -/
def cmpCond (cond : Nat) (a b : Word) : Bool × BitVec 4 :=
  match cond with
  | 0 => (a == b, 0)
  | 1 => (a != b, 0)
  | 2 => (a.slt b, 0)
  | 3 => (!(a.slt b), 0)
  | 4 => (a.ult b, 0)
  | 5 => (!(a.ult b), 0)
  | 6 => fpCmp false a b
  | _ => fpCmp true a b

/-- The operations of PLOG. -/
def plogOp (fn : Nat) (a b : Bool) : Bool :=
  match fn with | 0 => a && b | 1 => a || b | 2 => a != b | _ => a && !b

/-! ### The matrix engine's command flag word (R158) -/

def meInvalid : BitVec 9 := 1
def meFovf : BitVec 9 := 2
def meHovf : BitVec 9 := 4
def meLoss : BitVec 9 := 8
def meOvf : BitVec 9 := 16
def meNonfin : BitVec 9 := 32
def meIsat : BitVec 9 := 64
def meF8sat : BitVec 9 := 128
def meIllegal : BitVec 9 := 256

/-- One flag when a condition holds. -/
def flagIf (b : Bool) (f : BitVec 9) : BitVec 9 := if b then f else 0

/-- Convert an FP32 value to an FP8 format (R155). -/
def toFp8 (f : Fmt) (satfp8 : Bool) (r : Rnd) (x : Fl) : Nat × BitVec 9 :=
  match x with
  | .nan => (canonNan f, 0)
  | .inf n =>
    if satfp8 then (withSign f n (infBits f - 1), meF8sat)
    else ((if f.hasInf then withSign f n (infBits f) else canonNan f), meF8sat)
  | .fin n m e =>
    let y := roundMag f r m e
    if y.2 then
      if satfp8 then (withSign f n (infBits f - 1), meF8sat)
      else ((if f.hasInf then withSign f n (infBits f) else canonNan f), meF8sat)
    else (withSign f n y.1, 0)

/-- Convert an FP32 value to INT8 (R155): rounded first, saturating with ISAT; a NaN gives 0 with INVALID. -/
def toInt8 (r : Rnd) (x : Fl) : Nat × BitVec 9 :=
  match x with
  | .nan => (0, meInvalid)
  | .inf n => (if n then 0x80 else 0x7F, meIsat)
  | .fin n m e =>
    let i := sgn n (roundAt r m e 0)
    if i < -128 then (0x80, meIsat) else if 127 < i then (0x7F, meIsat) else (ofSigned 8 i, 0)

end Sys2Proof.Machine
end

