-- ==== Sys2Proof/Machine/Operands.lean ====
section
/-! DEFINITION. Machine/Operands.lean: the words of sprig instructions (R164), the registers and predicates they name
(R159), immediates, and addresses in data memory and the cluster store (R168). -/

namespace Sys2Proof.Machine

/-- OP, PRED and PNEG of an instruction word (R164). -/
def headWord (op : Nat) (pred : Fin 8) (pneg : Bool) : Nat := op * 2 ^ 26 + pred.val * 2 ^ 23 + b2n pneg * 2 ^ 22

/-- The word of a format A instruction (R164). -/
def wordA (op : Nat) (f : FmtA) : Word :=
  BitVec.ofNat 32 (headWord op f.pred f.pneg + f.rd.val * 2 ^ 17 + f.rs1.val * 2 ^ 12 + f.rs2.val * 2 ^ 7 + f.fn.toNat)

/-- The word of a format B instruction (R164). -/
def wordB (op : Nat) (f : FmtB) : Word :=
  BitVec.ofNat 32 (headWord op f.pred f.pneg + f.rd.val * 2 ^ 17 + f.rs1.val * 2 ^ 12 + f.imm.toNat)

/-- The word of a format C instruction (R164). -/
def wordC (op : Nat) (f : FmtC) : Word := BitVec.ofNat 32 (headWord op f.pred f.pneg + f.imm.toNat)

/-- A general register; g0 reads 0 (R159). -/
def getReg (x : Ctx) (r : Nat) : Word := if r = 0 then 0 else mget x.regs 0 r

/-- Write a general register whose value is ready from WORK cycle `ready`; a write to g0 is ignored (R159, R163). -/
def putReg (x : Ctx) (r : Nat) (v : Word) (ready : Nat) : Ctx :=
  if r = 0 then x else { x with regs := mset x.regs 0 r v, rdy := mset x.rdy 0 r ready }

/-- An instruction that its predicate turns off leaves its destination's value, and a reader waits as if it had been written: the
waits follow from the instruction sequence alone (R163, R165). -/
def holdReg (x : Ctx) (r : Nat) (ready : Nat) : Ctx :=
  if r = 0 then x else { x with rdy := mset x.rdy 0 r ready }

/-- A predicate; p0 reads 1 (R159). -/
def getPred (x : Ctx) (p : Nat) : Bool := p % 8 == 0 || x.preds.getLsbD (p % 8)

/-- Write a predicate; a write to p0 is ignored (R159). -/
def putPred (x : Ctx) (p : Nat) (v : Bool) : Ctx :=
  if p % 8 = 0 then x
  else { x with preds := if v then x.preds ||| (1 <<< (p % 8)) else x.preds &&& ~~~((1 : BitVec 8) <<< (p % 8)) }

/-- The instruction executes: PRED, inverted if PNEG = 1, is 1 (R165). -/
def predOn (x : Ctx) (pred : Fin 8) (pneg : Bool) : Bool := getPred x pred.val != pneg

/-- The WORK cycle from which every source register can be read (R163). -/
def readyAt (x : Ctx) (rs : List Nat) : Nat := rs.foldl (fun m r => Nat.max m (if r = 0 then 0 else mget x.rdy 0 r)) 0

/-- IMM12, sign-extended (R164). -/
def imm12 (f : FmtB) : Word := f.imm.signExtend 32

/-- A data-memory address (R168): modulo 2,048, the low bits that the width of `n` bytes needs ignored. -/
def dataAddr (a : Word) (n : Nat) : Nat := a.toNat % 2048 / n * n

/-- A cluster-store word address (R168): modulo 1 MiB. -/
def storeAddr (a : Word) : Nat := a.toNat % 0x100000 / 4 * 4

/-- Bank [9:6] of a cluster-store address (R175). -/
def bankOf (a : Nat) : Nat := a / 64 % 16

/-- The registers g[r], g[r+1], … of a command block; the number wraps at 32. -/
def blockRegs (r n : Nat) : List Nat := (List.range n).map (fun k => (r + k) % 32)

end Sys2Proof.Machine
end

