-- ==== Sys2Proof/Machine/Store.lean ====
section
/-! DEFINITION. Machine/Store.lean: the cluster store in time (R142, R175, R286–R291): every write lands at a WORK cycle of its
own, writes land in the order of those cycles, and what a reader sees depends on the cycles in which it reads. -/

namespace Sys2Proof.Machine

/-- Write to a cluster's store, noting the carried-area lines it changes (R273) and the poisoned lines it replaces whole
(R281). -/
def storeWrite (k : Cluster) (a : Nat) (bs : List Byte) : Cluster :=
  let lines := ((List.range ((a % 64 + bs.length + 63) / 64)).map (fun j => a / 64 + j)).filter
    (fun l => k.carried.lines.contains l && !(k.carried.dirty.contains l))
  { k with store := writeBytes k.store a bs, poison := (wholeLines a bs.length).foldl merase k.poison, carried := { k.carried with dirty := k.carried.dirty ++ lines } }

/-- A write joins those on their way, behind every one that is sure no later. -/
def landIn (e : Landing) : List Landing → List Landing
  | [] => [e]
  | x :: l => if x.hi ≤ e.hi then x :: landIn e l else e :: x :: l

def land (k : Cluster) (e : Landing) : Cluster := { k with landing := landIn e k.landing }

/-- A write that every reader sees from one cycle on. -/
def landAt (k : Cluster) (t a : Nat) (bs : List Byte) : Cluster := land k { lo := t, hi := t, addr := a, bytes := bs }

/-- Write bytes line by line, each line seen by no reader before `lo` and by every reader from `hi` on; the address wraps at
the end of the store. -/
def landRange (k : Cluster) (lo hi a : Nat) (bs : List Byte) : Cluster :=
  (lineRuns (bs.length / 64 + 2) a bs).foldl (fun k p =>
    land k { lo := lo, hi := hi, addr := p.1 % 0x100000, bytes := p.2 }) k

/-- Every write stands in the store: WORK is over. -/
def settleAll (k : Cluster) : Cluster := k.landing.foldl (fun k e => storeWrite k e.addr e.bytes) { k with landing := [] }

/-- The store as a reader of the cycles `lo` to `hi` sees it: a write that is sure by `lo` is seen, one that no reader of these
cycles can see is not, and whether any other is seen is free (R142, R175). With the number of choices taken. -/
def storeSeen (k : Cluster) (lo hi fresh : Nat) : Bytes × Nat :=
  k.landing.foldl (fun r e =>
    if e.hi ≤ lo then (writeBytes r.1 e.addr e.bytes, r.2)
    else if hi < e.lo then r
    else (if Config.freeNat (fresh + r.2) % 2 = 0 then writeBytes r.1 e.addr e.bytes else r.1, r.2 + 1)) (k.store, 0)

/-- `n` bytes of a store, wrapping at its end. -/
def wrapRead (m : Bytes) (a n : Nat) : List Byte := (List.range n).map fun j => byteAt m ((a + j) % 0x100000)

end Sys2Proof.Machine
end

