-- ==== Sys2Proof/Machine/Mesh.lean ====
section
/-! DEFINITION. Machine/Mesh.lean: the mesh and the crossbars of a hedge, cycle by cycle (R118–R129): routes and hop lengths,
virtual channels, arbitration and credits, die-link adapters, and the slice ports. A hedge's routers, slices and class 3 slots
are its own (R64, R68, R129), so each hedge has one Net. -/

namespace Sys2Proof.Machine

/-! ### Routes and lengths (R118–R120, R128) -/

/-- The output that a flit takes at router `r` on its way to `d`: first along x, then along y (R120). -/
def outTo (r d : Nat) : Nat :=
  if r % 32 < d % 32 then 2 else if d % 32 < r % 32 then 4
  else if r / 32 < d / 32 then 3 else if d / 32 < r / 32 then 1 else 0

/-- The neighbour at an output. -/
def nextRouter (r o : Nat) : Nat := match o with | 1 => r - 32 | 2 => r + 1 | 3 => r + 32 | _ => r - 1

/-- The input at which a flit sent through output `o` arrives: 1 west, 2 north, 3 east, 4 south. -/
def inputOf (o : Nat) : Nat := match o with | 1 => 4 | 2 => 1 | 3 => 2 | _ => 3

/-- The die-link calendar of a hop that crosses a die edge: the edge, the mesh module of the row or column, the direction
(R72, R128). -/
def hopCal (r o : Nat) : Option Nat :=
  let x := r % 32
  let y := r / 32
  let d := dieOf r
  let unit (edge m dir : Nat) : Nat := calFirst 3 + edge * 6 + m * 2 + dir
  let hEdge (w : Nat) : Nat := if w < 4 then w else w - 1
  match o with
  | 2 => if x % 8 = 7 then some (unit (hEdge d) (3 * (y % 8) / 8) 0) else none
  | 4 => if x % 8 = 0 then some (unit (hEdge (d - 1)) (3 * (y % 8) / 8) 1) else none
  | 3 => if y % 8 = 7 then some (unit (6 + d) (3 * (x % 8) / 8) 0) else none
  | 1 => if y % 8 = 0 then some (unit (6 + (d - 4)) (3 * (x % 8) / 8) 1) else none
  | _ => none

/-- A hop is an allowance hop (R119). -/
def allowanceHop (r o : Nat) : Bool :=
  match o with
  | 2 => r % 8 == 2 || r % 8 == 3
  | 4 => r % 8 == 3 || r % 8 == 4
  | _ => r % 8 == 3

/-- Cycles from a hop's grant to the flit's being ready in the next router (Table — Fixed latencies): the pads of R118 are in
the figure. -/
def hopCycles (r o : Nat) : Nat := if allowanceHop r o then 9 else 3

/-- Flits that an input buffer holds (Table — Virtual channels). -/
def bufDepth (vc : Nat) : Nat := if vc = 3 then 4 else 8

/-- The channels in the order in which an output serves them (R121). -/
def vcOrder (coppice : Bool) : List Nat := if coppice then [3, 0, 1, 2] else [0, 1, 2, 3]

/-- The stitch penalty of an access by a cluster to a slice (R119). Slice k of the other half has channel k mod 16 of its
direction to itself, so its limit is that of the slice's port (R127). -/
def stitchPenalty (c dpa : Nat) : Nat :=
  if c % 8 = 3 ∨ eastHalf c ≠ decide (sliceIndexOf dpa / 16 % 2 = 1) then 6 else 0

/-! ### Net -/

def netAt (s : State) (h : Nat) : Net := mget s.nets {} h
def modNet (s : State) (h : Nat) (f : Net → Net) : State := { s with nets := mmod s.nets {} h f }

/-- Numbers of input buffers and of outputs, by router and VC. -/
def portKey (r p vc : Nat) : Nat := (r * 5 + p) * 4 + vc

def opAt (k : Cluster) (tag : Nat) : Option Op := k.ops.find? (fun o => o.tag == tag)

/-- Change the operation of a tag. -/
def modOp (s : State) (c tag : Nat) (f : Op → Op) : State :=
  modCluster s c fun k => { k with ops := k.ops.map fun o => if o.tag = tag then f o else o }

/-- A unit sends a message: flit j is ready to be injected in cycle `t j` (R121). -/
def sendFlits (s : State) (h src unit : Nat) (c : Cl) (tag : Nat) (back : Bool) (dst : Cl) (vc : Fin 4) (n : Nat)
    (t : Nat → Nat) : State :=
  let key := src * 2 + unit
  modNet s h fun x => { x with inj := mset x.inj [] key (mget x.inj [] key ++
    (List.range n).map fun j => { c := c, tag := tag, back := back, idx := j, dst := dst, vc := vc, at_ := t j }) }

/-! ### One cycle of the routers (R121–R123) -/

/-- Credits that are back by cycle `t` (R123). -/
def creditsBack (x : Net) (t : Nat) : Net :=
  (x.back.filter fun b => decide (b.1 ≤ t)).foldl (fun x b => { x with used := mmod x.used 0 b.2 (· - 1) })
    { x with back := x.back.filter fun b => decide (t < b.1) }

/-- Each unit injects at most one flit, when its router's local buffer of the VC has space (R121). -/
def injectAll (x : Net) (t : Nat) : Net :=
  x.inj.foldl (fun x q =>
    match q.2 with
    | f :: rest =>
      let key := portKey (q.1 / 2) 0 f.vc.val
      if f.at_ ≤ t ∧ (mget x.bufs [] key).length < bufDepth f.vc.val then
        { x with inj := mset x.inj [] q.1 rest, bufs := mset x.bufs [] key (mget x.bufs [] key ++ [{ f with at_ := t }]) }
      else x
    | [] => x) x

/-- The flit at the head of an input buffer that is ready for an output. -/
def headFor (x : Net) (t r p vc o : Nat) : Option Flit :=
  match mget x.bufs [] (portKey r p vc) with
  | f :: _ => if f.at_ ≤ t ∧ outTo r f.dst.val = o then some f else none
  | [] => none

/-- The inputs with a flit ready for an output, in the order in which it searches them (R122). -/
def readyInputs (x : Net) (t r o vc : Nat) : List Nat :=
  let from_ := mget x.pos 0 (portKey r o vc)
  ((List.range 5).map fun j => (from_ + j) % 5).filter fun p => (headFor x t r p vc o).isSome

/-- The output holds a credit for the VC (R123). A flit that crosses a die edge needs none, for its slot alone decides when it
enters the far router (R129, entry 48); toward a dormant cluster and through a closed port there is none (R64, R104). -/
def holdsCredit (s : State) (x : Net) (r o vc : Nat) : Bool :=
  o == 0 || (hopCal r o).isSome ||
    (decide (mget x.used 0 (portKey r o vc) < bufDepth vc) && !(clusterAt s (nextRouter r o)).dormant &&
      !((clusterAt s r).closed.getLsbD (o - 1)))

/-- What an output does in a cycle: the VC and the input that it serves, and the VCs on which a flit waits (R121–R123). -/
def arbitrate (s : State) (x : Net) (t r o : Nat) : Option (Nat × Nat) × List Nat :=
  (vcOrder (s.tck.phase == .coppice)).foldl (fun a vc =>
    match readyInputs x t r o vc with
    | [] => a
    | p :: more =>
      if a.1.isNone ∧ holdsCredit s x r o vc then (some (vc, p), if more.isEmpty then a.2 else a.2 ++ [vc])
      else (a.1, a.2 ++ [vc])) (none, [])

/-- One stall cycle of a router output (R123; CNT RSTALL). -/
def addStall (s : State) (r o vc n : Nat) : State :=
  modCluster s r fun k => { k with cnt := { k.cnt with rstall := mmod k.cnt.rstall 0 (o * 4 + vc) (· + n) } }

/-- The matrix engine uses a bank of the store in cycle `t` (R142): which banks a command uses in which of its cycles no rule
states, so that is free (entry 20). -/
def meBusy (k : Cluster) (t b : Nat) : Bool :=
  match k.me.run with
  | some r => decide (k.me.began ≤ t ∧ t < r.done) &&
      Config.meBank r.cmd.w0.toNat r.cmd.w1.toNat r.cmd.w2.toNat r.cmd.w3.toNat (t - k.me.began) b
  | none => false

/-- Mesh access to a bank of the far store: after the matrix engine and before the sprigs, the first cycle from `t` on that
neither the engine nor another mesh access takes, `n` cycles looked at (R175, R493). -/
def meshBank (k : Cluster) (b : Nat) : Nat → Nat → Nat
  | 0, t => t
  | n + 1, t =>
    if meBusy k t b || mget k.banks 0 (t * 16 + b) == 2 then meshBank k b n (t + 1) else t

/-- The far store's address of beat `j` of a transfer between clusters: the low 6 bits ignored. The remote range never wraps,
so a line beyond the store has no address (R168, R176). -/
def farAddr (w1 : Word) (j : Nat) : Nat := w1.toNat / 64 * 64 + 64 * j

/-- The cluster-store address of beat `j`, wrapping at 1 MiB (R176). -/
def opBeat (o : Op) (j : Nat) : Nat := (bits o.w0.toNat 19 6 * 64 + 64 * j) % 0x100000

/-- A line that a read brings is with its issuer in cycle `t`: in the cluster's store, or in the coupling store's buffer of a SWAP
(R208). -/
def bringLine (c tag beat t : Nat) (line : List Byte) (s : State) : State :=
  match opAt (clusterAt s c) tag with
  | none => s
  | some o =>
    match o.kind with
    | .sheet _ => modOp s c tag fun o => { o with data := o.data ++ [(beat, line)] }
    | _ => modCluster s c fun k => landAt k t (opBeat o beat) line

/-- A flit is ejected in cycle `t` (R205, R493): a line is written in the cycle after it, at the far cluster or on its return;
a request or an acknowledgement takes effect as it is. -/
def ejectFlit (s : State) (f : Flit) (t : Nat) : State :=
  match opAt (clusterAt s f.c.val) f.tag with
  | none => s
  | some o =>
    let note (u : Nat) (s : State) : State :=
      modOp s f.c.val f.tag fun o => { o with left := o.left - 1, done := Nat.max o.done u }
    let line : List Byte := ((o.data.find? fun d => d.1 == f.idx).map (·.2)).getD []
    match o.kind with
    | .cluster dst =>
      let reads := bit o.w3.toNat 14
      if !f.back && !reads then
        let k := clusterAt s dst.val
        let a := farAddr o.w1 f.idx % 0x100000
        let u := meshBank k (bankOf a) 64 (t + 1)
        note u (setCluster s dst.val (landAt { k with banks := mset k.banks 0 (u * 16 + bankOf a) 2 } u a line))
      else if f.back && reads then
        note (t + 1) (modCluster s f.c.val fun k => landAt k (t + 1) (opBeat o f.idx) line)
      else note t s
    | _ => note t s

/-- A granted flit leaves its buffer: its entry's credit goes back (R123), and it goes to its unit, to a die-link adapter or to
the next router. -/
def moveFlit (h t r : Nat) (s : State) (g : Nat × Nat × Nat) : State :=
  let (o, vc, p) := g
  let x := netAt s h
  match mget x.bufs [] (portKey r p vc) with
  | [] => s
  | f :: rest =>
    let x1 : Net := { x with
      bufs := mset x.bufs [] (portKey r p vc) rest
      pos := mset x.pos 0 (portKey r o vc) ((p + 1) % 5)
      back := match p with
        | 0 => x.back
        | _ =>
          let up := match p with | 1 => (r - 1, 2) | 2 => (r - 32, 3) | 3 => (r + 1, 4) | _ => (r + 32, 1)
          if (hopCal up.1 up.2).isSome then x.back else x.back ++ [(t + 2, portKey up.1 up.2 vc)] }
    let count (s : State) : State := modCluster s r fun k => { k with flits := mmod k.flits 0 vc (· + 1) }
    if o = 0 then ejectFlit (modNet s h fun _ => x1) f (t + 2)
    else
      match hopCal r o with
      | some cal =>
        count (modNet s h fun _ => { x1 with adapters := mset x1.adapters [] cal (mget x1.adapters [] cal ++
          [{ f := { f with at_ := t }, src := r, out := o, far := nextRouter r o, inp := inputOf o }]) })
      | none =>
        let key := portKey (nextRouter r o) (inputOf o) vc
        count (modNet s h fun _ => { x1 with
          used := mmod x1.used 0 (portKey r o vc) (· + 1)
          bufs := mset x1.bufs [] key (mget x1.bufs [] key ++ [{ f with at_ := t + hopCycles r o }]) })

/-- The routers that hold a flit. -/
def busyRouters (x : Net) : List Nat := (x.bufs.map fun b => b.1 / 20).dedup

/-- One cycle of one router: every output decides on the buffers as the cycle found them. -/
def routerCycle (h t : Nat) (x : Net) (s : State) (r : Nat) : State :=
  (List.range 5).foldl (fun s o =>
    let a := arbitrate s x t r o
    let s1 := a.2.foldl (fun s vc => addStall s r o vc 1) s
    match a.1 with
    | some g => moveFlit h t r s1 (o, g.1, g.2)
    | none => s1) s

/-! ### One cycle of the slice ports (R126, R288, R289) -/

/-- Distance in the rotation by hedge-local id from the id at which a port searches (R126). -/
def rotation (start n lid : Nat) : Nat := (lid + n - start % n) % n

/-- The access that a port serves in one direction: among those that have reached it, the first in the rotation; of one
cluster's, the first issued. -/
def portPick (l : List Access) (start n t : Nat) (read : Bool) : Option Access :=
  (l.filter fun a => a.read == read && decide (a.at_ ≤ t)).foldl (fun m a =>
    match m with
    | none => some a
    | some b => if rotation start n a.lid < rotation start n b.lid then some a else m) none

/-- An access is served at its slice port in cycle `t`: a write replaces the line, and the issuer has its completion one cycle
later; a read samples the line, which reaches the issuer's store 16 cycles later, a poisoned one as zeros (R281, R288). -/
def serveAccess (h t : Nat) (s : State) (a : Access) : State :=
  let s1 := modNet s h fun x => { x with
    acc := x.acc.filter fun b => !(b.c == a.c && b.tag == a.tag && b.beat == a.beat) }
  match opAt (clusterAt s a.c.val) a.tag with
  | none => s1
  | some o =>
    if a.read then
      let bad := poisoned s a.dpa
      let line := if bad then List.replicate 64 0 else readBytes s.mem a.dpa 64
      modOp (bringLine a.c.val a.tag a.beat (t + 16) line s1) a.c.val a.tag fun o =>
        { o with left := o.left - 1, done := Nat.max o.done (t + 16), bad := if bad then o.bad ++ [a.beat] else o.bad }
    else
      let line := ((o.data.find? fun d => d.1 == a.beat).map (·.2)).getD []
      let s2 := memWrite s1 a.dpa line
      let s3 := match a.key with
        | some k => modInst s2 h fun i => { i with pend := mset i.pend false k true }
        | none => s2
      modOp s3 a.c.val a.tag fun o => { o with left := o.left - 1, done := Nat.max o.done (t + 1) }

/-- One cycle of one slice port: one access in each direction. When both are served the rotation orders them, and of one
cluster's the write goes first (R126, R289, entry 47). -/
def portCycle (h t : Nat) (s : State) (slice : Nat) : State :=
  let x := netAt s h
  let n := (instAt s h).w * (instAt s h).h
  let l := x.acc.filter fun a => sliceIndexOf a.dpa == slice
  let start := mget x.rot 0 slice
  let w := portPick l start n t false
  let r := portPick l start n t true
  let order := match w, r with
    | some w, some r => if rotation start n r.lid < rotation start n w.lid then [r, w] else [w, r]
    | some w, none => [w]
    | none, some r => [r]
    | none, none => []
  let s1 := order.foldl (serveAccess h t) s
  match order.getLast? with
  | some a => modNet s1 h fun x => { x with rot := mset x.rot 0 slice ((a.lid + 1) % n) }
  | none => s1

/-! ### Running the net -/

/-- One WORK cycle of a hedge's mesh and slice ports. -/
def netCycle (s : State) (h t : Nat) : State :=
  let x := injectAll (creditsBack (netAt s h) t) t
  let s1 := (busyRouters x).foldl (routerCycle h t x) (modNet s h fun _ => x)
  let slices := ((netAt s1 h).acc.filterMap fun a => if a.at_ ≤ t then some (sliceIndexOf a.dpa) else none).dedup
  modNet (slices.foldl (portCycle h t) s1) h fun x => { x with now := t + 1 }

/-- The next cycle in which something can move; none when nothing is under way but what waits for a die-link slot. -/
def netNext (x : Net) : Option Nat :=
  let l := x.back.map (·.1) ++ x.acc.map (·.at_) ++ x.inj.filterMap (fun q => q.2.head?.map (·.at_)) ++
    x.bufs.filterMap (fun q => q.2.head?.map (·.at_))
  match l with
  | [] => none
  | a :: t => some (Nat.max x.now (t.foldl Nat.min a))

/-- The most cycles that one command runs a net: more than any message of the module takes. -/
def netFuel : Nat := 65536

/-- Run the net until `p` holds or nothing can move. -/
def netUntil (h : Nat) (p : State → Bool) : Nat → State → State
  | 0, s => s
  | n + 1, s =>
    if p s then s
    else match netNext (netAt s h) with
      | some t => netUntil h p n (netCycle s h t)
      | none => s

/-- Run the net through every cycle before `upto`. -/
def netTo (h upto : Nat) : Nat → State → State
  | 0, s => s
  | n + 1, s =>
    match netNext (netAt s h) with
    | some t => if t < upto then netTo h upto n (netCycle s h t) else s
    | none => s

/-- The first WORK cycle at or after `ns` from the boundary, at the grade in effect (R29, R372). -/
def cycleAt (s : State) (ns : Nat) : Nat := nsToCycles (ns - 1000) s.avsDev.grade

/-- The WORK cycles of a tick at the grade in effect (R29). -/
def workCycles (s : State) : Nat := workNs s.tck.period * gradeMHz s.avsDev.grade / 1000

end Sys2Proof.Machine
end

