-- ==== Sys2Proof/Machine/Sprig.lean ====
section
/-! DEFINITION. Machine/Sprig.lean: the issue of sprig instructions (R159–R182): when an instruction can issue, its
dependency, queue and port waits, loops, the integer, predicate and FP instructions, data memory and the cluster store,
neighbour queues, contexts, laying, and the end of a program. -/

namespace Sys2Proof.Machine

/-! ### Issue (R162, R163, R179) -/

/-- A cluster's programs run: its hedge is RUNNING in WORK and the cluster is not stopped (R29, R50, R380). -/
def clusterRuns (s : State) (k : Cluster) : Bool :=
  s.tck.phase == .work && !k.stopped && decide (k.owner ≠ 0) && (instAt s k.owner).st == .running

/-- A context that holds a program and has neither ended nor waits in IDLE. -/
def ctxActive (x : Sprig) (a : Fin 4) : Bool :=
  x.prog.getLsbD a.val && !(ctxAt x a).ended && (ctxAt x a).idleLeft == 0

/-- Laying is in force: D of 2 or 4 (R179). -/
def laying (k : Cluster) : Bool := decide (1 < k.layDepth ∧ 0 < k.layPeriod)

/-- The slot's first cycle is still to be spent as a switch cycle (R179). -/
def switchDue (k : Cluster) (x : Sprig) : Bool := laying k && decide (0 < x.cycle ∧ x.cycle % k.layPeriod = 0)

/-- The first WORK cycle after the laying slot that holds cycle `t`. -/
def slotEnd (k : Cluster) (t : Nat) : Nat := (t / k.layPeriod + 1) * k.layPeriod

/-- What an instruction sees when it issues: its cluster, sprig, context and hedge, and the WORK cycle of issue. -/
structure Env where
  k : Cluster
  x : Sprig
  cx : Ctx
  a : Fin 4
  h : Nat
  t : Nat

/-- Why an instruction waits another cycle at issue (R171, R174, R175, R136). `turn`: a sprig that comes first has not reached
the cycle yet, so nothing beyond the sources' wait is known. -/
inductive Wait where
  | queue | port | tag | turn
  deriving DecidableEq, Repr

/-- The instruction word at a context's program counter (R160). -/
def fetchWord (x : Sprig) (a : Fin 4) : Word := mget x.imem 0 (a.val * 256 + (ctxAt x a).pc)

/-- The word `w` is what the sprig's active context issues next. -/
def issues (s : State) (c p : Nat) (w : Word) : Bool :=
  let k := clusterAt s c
  let x := sprigAt k p
  clusterRuns s k && ctxActive x x.active && !switchDue k x && decide ((ctxAt x x.active).pc < 256) &&
    fetchWord x x.active == w

/-- Wait at issue until cycle `t`: dependency stalls (R163). -/
def stallDep (x : Sprig) (t : Nat) : Sprig := { x with cycle := t, cnt := { x.cnt with dep := x.cnt.dep + (t - x.cycle) } }

/-- The program counter after the instruction at it (R162, R169): a loop body that ends here goes back to its start while
its count is not done, the inner level first. -/
def advancePc (x : Ctx) : Ctx :=
  let outer (y : Ctx) : Ctx :=
    match y.loop0 with
    | some l =>
      if y.pc = l.last then
        if l.left = 0 then { y with loop0 := none, pc := y.pc + 1 }
        else { y with loop0 := some { l with left := l.left - 1 }, pc := l.first }
      else { y with pc := y.pc + 1 }
    | none => { y with pc := y.pc + 1 }
  match x.loop1 with
  | some l =>
    if x.pc = l.last then
      if l.left = 0 then outer { x with loop1 := none }
      else { x with loop1 := some { l with left := l.left - 1 }, pc := l.first }
    else outer x
  | none => outer x

/-- The sprig after one issue in cycle `t`: the waits, the busy cycle, the program counter (R162, R163). -/
def issued (x : Sprig) (a : Fin 4) (t : Nat) : Sprig :=
  let y := stallDep x t
  modCtx { y with cycle := t + 1, cnt := { y.cnt with busy := y.cnt.busy + 1 } } a advancePc

/-- The sprig after one more cycle of waiting in cycle `t`. -/
def waited (x : Sprig) (t : Nat) (w : Wait) : Sprig :=
  let y := stallDep x t
  match w with
  | .turn => y
  | .queue => { y with cycle := t + 1, cnt := { y.cnt with q := y.cnt.q + 1 } }
  | _ => { y with cycle := t + 1, cnt := { y.cnt with port := y.cnt.port + 1 } }

/-- The sprig can still issue in this tick. -/
def mayIssue (k : Cluster) (x : Sprig) : Bool :=
  (x.prog.getLsbD x.active.val && !(ctxAt x x.active).ended && decide ((ctxAt x x.active).pc < 256)) ||
    (laying k && (List.finRange 4).any fun a => x.prog.getLsbD a.val && !(ctxAt x a).ended)

/-- Sprig `p` is the first of its cluster in cycle `t`: every other one is past the cycle, or issues in it after `p` (R174,
R175). -/
def isTurn (k : Cluster) (p t : Nat) : Bool :=
  k.sprigs.all fun q => q.1 == p || !(mayIssue k q.2) || decide (t < q.2.cycle) || (q.2.cycle == t && decide (p < q.1))

/-- An instruction that shares a resource with other sprigs waits for its turn, then for the resource. -/
def inTurn (p : Nat) (blocked : Env → Option Wait) (e : Env) : Option Wait :=
  if isTurn e.k p e.t then blocked e else some .turn

/-- Issue the instruction of word `w` on sprig `p` of cluster `c`. Its sources are the registers `rs`; `div` says that it
needs the divide unit. `blocked` says what it waits for beyond its sources, and `eff` is its effect on the state after
issue. A command that is not the sprig's next instruction is one the device does not issue (entry 2). -/
def runInstr (s : State) (c p : Nat) (w : Word) (rs : List Nat) (div : Bool) (blocked : Env → Option Wait)
    (eff : Env → State → State) : Result :=
  .next <|
    if issues s c p w then
      let k := clusterAt s c
      let x := sprigAt k p
      let a := x.active
      let t := Nat.max x.cycle (Nat.max (readyAt (ctxAt x a) rs) (if div then x.divFree else 0))
      if laying k && decide (slotEnd k x.cycle ≤ t) then
        modCluster s c fun k => modSprig k p fun y => stallDep y (slotEnd k x.cycle)
      else
        let e : Env := { k := k, x := x, cx := ctxAt x a, a := a, h := k.owner, t := t }
        match blocked e with
        | some b =>
          modCluster s c fun k =>
            { modSprig k p (fun y => waited y t b) with tagStall := k.tagStall + (if b = .tag then 1 else 0) }
        | none => eff e (modCluster s c fun k => modSprig k p fun y => issued y a t)
    else s

/-- The state in which an instruction that accesses the cluster store issues: the hedge's mesh has run through the cycle, so every
access that comes before a sprig's is known (R175, R493). -/
def storeReady (s : State) (c p : Nat) (w : Word) (rs : List Nat) : State :=
  let k := clusterAt s c
  let x := sprigAt k p
  let t := Nat.max x.cycle (readyAt (ctxAt x x.active) rs)
  if issues s c p w && isTurn k p t then netTo k.owner (t + 1) netFuel s else s

/-- Nothing beyond the sources holds the instruction. -/
def free : Env → Option Wait := fun _ => none

/-- Change the issuing context. -/
def modIssuer (s : State) (c p : Nat) (a : Fin 4) (f : Ctx → Ctx) : State :=
  modCluster s c fun k => modSprig k p fun x => modCtx x a f

/-- An instruction with a register result of latency `lat`, computed from the issuing context (R163, R165). -/
def regInstr (s : State) (c p : Nat) (w : Word) (rs : List Nat) (pred : Fin 8) (pneg : Bool) (rd lat : Nat)
    (v : Ctx → Word) : Result :=
  runInstr s c p w rs false free fun e t =>
    modIssuer t c p e.a fun x =>
      if predOn e.cx pred pneg then putReg x rd (v e.cx) (e.t + lat) else holdReg x rd (e.t + lat)

/-- A format A instruction on two registers. -/
def aluA (op lat : Nat) (v : Word → Word → Word) (c : Cl) (p : Sp) (f : FmtA) (s : State) : Result :=
  regInstr s c.val p.val (wordA op f) [f.rs1.val, f.rs2.val] f.pred f.pneg f.rd.val lat
    fun x => v (getReg x f.rs1.val) (getReg x f.rs2.val)

/-- A format B instruction on a register and IMM12. -/
def aluB (op : Nat) (v : Word → Word → Word) (c : Cl) (p : Sp) (f : FmtB) (s : State) : Result :=
  regInstr s c.val p.val (wordB op f) [f.rs1.val] f.pred f.pneg f.rd.val 1
    fun x => v (getReg x f.rs1.val) (imm12 f)

/-- NOP (0x00). -/
def execNop (c : Cl) (p : Sp) (f : FmtC) (s : State) : Result :=
  runInstr s c.val p.val (wordC 0x00 f) [] false free fun _ t => t

/-! ### Integer instructions (R167) -/

def execAdd (c : Cl) (p : Sp) (f : FmtA) (s : State) : Result := aluA 0x01 1 (fun a b => a + b) c p f s
def execSub (c : Cl) (p : Sp) (f : FmtA) (s : State) : Result := aluA 0x02 1 (fun a b => a - b) c p f s
def execAnd (c : Cl) (p : Sp) (f : FmtA) (s : State) : Result := aluA 0x03 1 (fun a b => a &&& b) c p f s
def execOr (c : Cl) (p : Sp) (f : FmtA) (s : State) : Result := aluA 0x04 1 (fun a b => a ||| b) c p f s
def execXor (c : Cl) (p : Sp) (f : FmtA) (s : State) : Result := aluA 0x05 1 (fun a b => a ^^^ b) c p f s
def execShl (c : Cl) (p : Sp) (f : FmtA) (s : State) : Result := aluA 0x06 1 (fun a b => a <<< (b.toNat % 32)) c p f s
def execShr (c : Cl) (p : Sp) (f : FmtA) (s : State) : Result := aluA 0x07 1 (fun a b => a >>> (b.toNat % 32)) c p f s
def execSra (c : Cl) (p : Sp) (f : FmtA) (s : State) : Result :=
  aluA 0x08 1 (fun a b => a.sshiftRight (b.toNat % 32)) c p f s
def execMul (c : Cl) (p : Sp) (f : FmtA) (s : State) : Result := aluA 0x09 3 (fun a b => a * b) c p f s
def execMin (c : Cl) (p : Sp) (f : FmtA) (s : State) : Result := aluA 0x0B 1 (fun a b => if a.slt b then a else b) c p f s
def execMax (c : Cl) (p : Sp) (f : FmtA) (s : State) : Result := aluA 0x0C 1 (fun a b => if a.slt b then b else a) c p f s
def execAddi (c : Cl) (p : Sp) (f : FmtB) (s : State) : Result := aluB 0x10 (fun a b => a + b) c p f s
def execAndi (c : Cl) (p : Sp) (f : FmtB) (s : State) : Result := aluB 0x11 (fun a b => a &&& b) c p f s
def execOri (c : Cl) (p : Sp) (f : FmtB) (s : State) : Result := aluB 0x12 (fun a b => a ||| b) c p f s
def execShli (c : Cl) (p : Sp) (f : FmtB) (s : State) : Result := aluB 0x14 (fun a b => a <<< (b.toNat % 32)) c p f s
def execShri (c : Cl) (p : Sp) (f : FmtB) (s : State) : Result := aluB 0x15 (fun a b => a >>> (b.toNat % 32)) c p f s

/-- LUI (0x16): RD in [21:17], IMM16 in [15:0]. -/
def execLui (c : Cl) (p : Sp) (f : FmtC) (s : State) : Result :=
  regInstr s c.val p.val (wordC 0x16 f) [] f.pred f.pneg (bits f.imm.toNat 21 17) 1
    fun _ => BitVec.ofNat 32 (bits f.imm.toNat 15 0 * 65536)

/-! ### Predicates -/

/-- OR flags into SPG_FLAGS (R167). -/
def orSpg (s : State) (c : Nat) (fl : BitVec 4) : State := modCluster s c fun k => { k with spgFlags := k.spgFlags ||| fl }

/-- An instruction that writes a predicate, and flags. -/
def predInstr (s : State) (c p : Nat) (w : Word) (rs : List Nat) (pred : Fin 8) (pneg : Bool) (pd : Nat)
    (v : Ctx → Bool × BitVec 4) : Result :=
  runInstr s c p w rs false free fun e t =>
    if predOn e.cx pred pneg then
      orSpg (modIssuer t c p e.a fun x => putPred x pd (v e.cx).1) c (v e.cx).2
    else t

/-- CMP (0x18). -/
def execCmp (c : Cl) (p : Sp) (f : FmtA) (s : State) : Result :=
  predInstr s c.val p.val (wordA 0x18 f) [f.rs1.val, f.rs2.val] f.pred f.pneg f.rd.val
    fun x => cmpCond (f.fn.toNat % 8) (getReg x f.rs1.val) (getReg x f.rs2.val)

/-- CMPI (0x19): the condition stands in RD[4:3]. -/
def execCmpi (c : Cl) (p : Sp) (f : FmtB) (s : State) : Result :=
  predInstr s c.val p.val (wordB 0x19 f) [f.rs1.val] f.pred f.pneg f.rd.val
    fun x => cmpCond (f.rd.val / 8) (getReg x f.rs1.val) (imm12 f)

/-- PLOG (0x1A). -/
def execPlog (c : Cl) (p : Sp) (f : FmtA) (s : State) : Result :=
  predInstr s c.val p.val (wordA 0x1A f) [] f.pred f.pneg f.rd.val
    fun x => (plogOp (f.fn.toNat % 4) (getPred x f.rs1.val) (getPred x f.rs2.val), 0)

/-- SEL (0x1B): rd ← p[FN[2:0]] ? rs1 : rs2. -/
def execSel (c : Cl) (p : Sp) (f : FmtA) (s : State) : Result :=
  regInstr s c.val p.val (wordA 0x1B f) [f.rs1.val, f.rs2.val] f.pred f.pneg f.rd.val 1
    fun x => if getPred x (f.fn.toNat % 8) then getReg x f.rs1.val else getReg x f.rs2.val

/-! ### FP instructions (R167) -/

/-- An FP instruction: a result of latency `lat`, and flags; `div` occupies the divide unit for 8 cycles (R163). -/
def fpInstr (op lat : Nat) (rs : List Nat) (div : Bool) (v : Ctx → Word × BitVec 4) (c : Cl) (p : Sp) (f : FmtA)
    (s : State) : Result :=
  runInstr s c.val p.val (wordA op f) rs div free fun e t =>
    let t1 := if div then modCluster t c.val fun k => modSprig k p.val fun x => { x with divFree := e.t + 8 } else t
    if predOn e.cx f.pred f.pneg then
      orSpg (modIssuer t1 c.val p.val e.a fun x => putReg x f.rd.val (v e.cx).1 (e.t + lat)) c.val (v e.cx).2
    else modIssuer t1 c.val p.val e.a fun x => holdReg x f.rd.val (e.t + lat)

/-- FADD (0x20). -/
def execFadd (c : Cl) (p : Sp) (f : FmtA) (s : State) : Result :=
  fpInstr 0x20 4 [f.rs1.val, f.rs2.val] false (fun x => fpAdd (getReg x f.rs1.val) (getReg x f.rs2.val)) c p f s
/-- FSUB (0x21). -/
def execFsub (c : Cl) (p : Sp) (f : FmtA) (s : State) : Result :=
  fpInstr 0x21 4 [f.rs1.val, f.rs2.val] false (fun x => fpAdd (getReg x f.rs1.val) (fpNeg (getReg x f.rs2.val))) c p f s
/-- FMUL (0x22). -/
def execFmul (c : Cl) (p : Sp) (f : FmtA) (s : State) : Result :=
  fpInstr 0x22 4 [f.rs1.val, f.rs2.val] false (fun x => fpMul (getReg x f.rs1.val) (getReg x f.rs2.val)) c p f s
/-- FMA (0x23): rd + rs1 × rs2. -/
def execFma (c : Cl) (p : Sp) (f : FmtA) (s : State) : Result :=
  fpInstr 0x23 4 [f.rd.val, f.rs1.val, f.rs2.val] false
    (fun x => fpFma (getReg x f.rd.val) (getReg x f.rs1.val) (getReg x f.rs2.val)) c p f s
/-- FDIV (0x24). -/
def execFdiv (c : Cl) (p : Sp) (f : FmtA) (s : State) : Result :=
  fpInstr 0x24 8 [f.rs1.val, f.rs2.val] true (fun x => fpDiv (getReg x f.rs1.val) (getReg x f.rs2.val)) c p f s
/-- FSQRT (0x25). -/
def execFsqrt (c : Cl) (p : Sp) (f : FmtA) (s : State) : Result :=
  fpInstr 0x25 8 [f.rs1.val] true (fun x => fpSqrt (getReg x f.rs1.val)) c p f s
/-- FCVT (0x26). -/
def execFcvt (c : Cl) (p : Sp) (f : FmtA) (s : State) : Result :=
  fpInstr 0x26 2 [f.rs1.val] false (fun x => fpCvt f.fn.toNat (getReg x f.rs1.val)) c p f s

/-! ### Data memory and the cluster store (R168, R175) -/

/-- A load of `n` bytes from data memory, latency 2. -/
def dataLoad (op n : Nat) (c : Cl) (p : Sp) (f : FmtB) (s : State) : Result :=
  runInstr s c.val p.val (wordB op f) [f.rs1.val] false free fun e t =>
    modIssuer t c.val p.val e.a fun x =>
      if predOn e.cx f.pred f.pneg then
        putReg x f.rd.val (BitVec.ofNat 32 (readLe e.x.dmem (dataAddr (getReg e.cx f.rs1.val + imm12 f) n) n)) (e.t + 2)
      else holdReg x f.rd.val (e.t + 2)

/-- A store of `n` bytes to data memory. -/
def dataStore (op n : Nat) (c : Cl) (p : Sp) (f : FmtB) (s : State) : Result :=
  runInstr s c.val p.val (wordB op f) [f.rs1.val, f.rd.val] false free fun e t =>
    if predOn e.cx f.pred f.pneg then
      modCluster t c.val fun k => modSprig k p.val fun x =>
        { x with dmem := writeLe x.dmem (dataAddr (getReg e.cx f.rs1.val + imm12 f) n) n (getReg e.cx f.rd.val).toNat }
    else t

def execLd (c : Cl) (p : Sp) (f : FmtB) (s : State) : Result := dataLoad 0x28 4 c p f s
def execSt (c : Cl) (p : Sp) (f : FmtB) (s : State) : Result := dataStore 0x29 4 c p f s
def execLdh (c : Cl) (p : Sp) (f : FmtB) (s : State) : Result := dataLoad 0x2A 2 c p f s
def execSth (c : Cl) (p : Sp) (f : FmtB) (s : State) : Result := dataStore 0x2B 2 c p f s

/-- The cluster-store word that LDC and STC address: rs1 + 4 × imm (R168). -/
def clusterWord (x : Ctx) (f : FmtB) : Nat := storeAddr (getReg x f.rs1.val + 4 * imm12 f)

/-- The bank serves the matrix engine, a mesh access or another sprig in this cycle (R142, R175). -/
def bankTaken (f : FmtB) (e : Env) : Option Wait :=
  let b := bankOf (clusterWord e.cx f)
  if meBusy e.k e.t b || mget e.k.banks 0 (e.t * 16 + b) != 0 then some .port else none

/-- Take the bank for this cycle (R165, R175). -/
def takeBank (c : Nat) (f : FmtB) (e : Env) (s : State) : State :=
  modCluster s c fun k => { k with banks := mset k.banks 0 (e.t * 16 + bankOf (clusterWord e.cx f)) 1 }

/-- LDC (0x2C): the word as the store holds it in the cycle of issue. -/
def execLdc (c : Cl) (p : Sp) (f : FmtB) (s : State) : Result :=
  runInstr (storeReady s c.val p.val (wordB 0x2C f) [f.rs1.val]) c.val p.val (wordB 0x2C f) [f.rs1.val] false
    (inTurn p.val (bankTaken f)) fun e t =>
    let t1 := takeBank c.val f e t
    let m := storeSeen e.k e.t e.t t1.fresh
    if predOn e.cx f.pred f.pneg then
      modIssuer (reportPoison (burn t1 m.2) c.val (clusterWord e.cx f) 4) c.val p.val e.a fun x =>
        putReg x f.rd.val (BitVec.ofNat 32 (readLe m.1 (clusterWord e.cx f) 4)) (e.t + 6)
    else modIssuer t1 c.val p.val e.a fun x => holdReg x f.rd.val (e.t + 6)

/-- STC (0x2D): seen by every access that begins 6 or more cycles after it issues; by one between, the rule does not say
(entry 49). -/
def execStc (c : Cl) (p : Sp) (f : FmtB) (s : State) : Result :=
  runInstr (storeReady s c.val p.val (wordB 0x2D f) [f.rs1.val, f.rd.val]) c.val p.val (wordB 0x2D f) [f.rs1.val, f.rd.val]
    false (inTurn p.val (bankTaken f)) fun e t =>
    let t1 := takeBank c.val f e t
    if predOn e.cx f.pred f.pneg then
      modCluster t1 c.val fun k => land k
        { lo := e.t + 1, hi := e.t + 6, addr := clusterWord e.cx f, bytes := leBytes 4 (getReg e.cx f.rd.val).toNat }
    else t1

/-! ### Queues (R170–R173) -/

/-- The neighbouring sprig in direction d (0 N, 1 E, 2 S, 3 W); none off the grid edge. -/
def neighbour (p d : Nat) : Option Nat :=
  match d with
  | 0 => if 4 ≤ p then some (p - 4) else none
  | 1 => if p % 4 < 3 then some (p + 1) else none
  | 2 => if p < 12 then some (p + 4) else none
  | _ => if 0 < p % 4 then some (p - 1) else none

/-- The queue on the opposite side (R170). -/
def opposite (d : Nat) : Nat := (d + 2) % 4

/-- The sender holds a credit for a queue in cycle `t`: the entries of the queue, and those whose credit is still on its way, are
fewer than its depth (R171). -/
def hasCredit (q : Queue) (t : Nat) : Bool :=
  decide (q.fly.length + q.q.length + (q.owed.filter fun r => decide (t < r)).length < q.depth)

/-- The queue that a PUSH toward d enters. -/
def pushTarget (k : Cluster) (p : Nat) (a : Fin 4) (d : Nat) : Queue :=
  match neighbour p d with
  | some n => queueAt (ctxAt (sprigAt k n) a) (opposite d)
  | none => {}

/-- PUSH (0x30): the entry becomes poppable 2 cycles after issue; without a credit the sprig waits. -/
def execPush (c : Cl) (p : Sp) (f : FmtA) (s : State) : Result :=
  let d := f.fn.toNat % 4
  runInstr s c.val p.val (wordA 0x30 f) [f.rs1.val] false
    (inTurn p.val fun e => if hasCredit (pushTarget e.k p.val e.a d) e.t then none else some .queue) fun e t =>
    match neighbour p.val d with
    | some n => modCluster t c.val fun k => modSprig k n fun x => modCtx x e.a fun y =>
        let q := queueAt y (opposite d)
        setQueue y (opposite d) { q with fly := q.fly ++ [(getReg e.cx f.rs1.val, e.t + 2)] }
    | none => t

/-- The head of queue FN[2:0] that can be popped in this cycle. -/
def queueHead (e : Env) (q : Nat) : Option Word :=
  match (queueAt e.cx q).q with
  | (v, at0) :: _ => if at0 ≤ e.t then some v else none
  | [] => none

/-- POP (0x31): the freed entry's credit goes back to a neighbour (R171). -/
def execPop (c : Cl) (p : Sp) (f : FmtA) (s : State) : Result :=
  let n := f.fn.toNat % 8
  runInstr s c.val p.val (wordA 0x31 f) [] false
    (inTurn p.val fun e => if (queueHead e n).isSome then none else some .queue) fun e t =>
    modIssuer t c.val p.val e.a fun x =>
      let q := queueAt x n
      putReg (setQueue x n { q with q := q.q.tail, owed := if n < 4 then q.owed ++ [e.t + 1] else q.owed }) f.rd.val
        ((queueHead e n).getD 0) (e.t + 1)

/-- PEEK (0x32). -/
def execPeek (c : Cl) (p : Sp) (f : FmtA) (s : State) : Result :=
  let n := f.fn.toNat % 8
  runInstr s c.val p.val (wordA 0x32 f) [] false
    (inTurn p.val fun e => if (queueHead e n).isSome then none else some .queue) fun e t =>
    modIssuer t c.val p.val e.a fun x => putReg x f.rd.val ((queueHead e n).getD 0) (e.t + 1)

/-- Entries into a queue, with the counts of CNT (ENQ, PEAK). -/
def enqueueWords (q : Queue) (l : List (Word × Nat)) : Queue :=
  { q with q := q.q ++ l, enq := q.enq + l.length, peak := Nat.max q.peak (q.q.length + l.length) }

/-- QUEUE_ENTRY_ARRIVAL: the oldest pushed entry becomes poppable (R170). -/
def execQueueEntryArrival (c : Cl) (p : Sp) (x : Cx) (q : Fin 5) (s : State) : Result :=
  .next <|
    let old := queueAt (ctxAt (sprigAt (clusterAt s c.val) p.val) x) q.val
    match old.fly with
    | e :: rest => modIssuer s c.val p.val x fun y => setQueue y q.val (enqueueWords { old with fly := rest } [e])
    | [] => s

/-- QUEUE_CREDIT_RETURN: a credit is back with the sender, 1 cycle after the POP; not before the sender's sprig has reached that
cycle (R171). -/
def execQueueCreditReturn (c : Cl) (p : Sp) (x : Cx) (q : Fin 5) (s : State) : Result :=
  .next <|
    let k := clusterAt s c.val
    match neighbour p.val q.val, (queueAt (ctxAt (sprigAt k p.val) x) q.val).owed with
    | some n, r :: rest =>
      if r ≤ (sprigAt k n).cycle then modIssuer s c.val p.val x fun y =>
        setQueue y q.val { queueAt y q.val with owed := rest }
      else s
    | _, _ => s

/-- The U queue of a context has room for `n` more entries (R172, R173). -/
def uRoom (k : Cluster) (p : Nat) (a : Fin 4) (n : Nat) : Bool :=
  let q := queueAt (ctxAt (sprigAt k p) a) 4
  decide (q.q.length + n ≤ q.depth)

/-- The entries for which it has space. -/
def uSpace (k : Cluster) (p : Nat) (a : Fin 4) : Nat :=
  let q := queueAt (ctxAt (sprigAt k p) a) 4
  q.depth - q.q.length

/-- A unit returns words to the U queue of the context that issued the command, poppable from cycle `t` (R172). -/
def deliverU (k : Cluster) (p : Nat) (a : Fin 4) (ws : List Word) (t : Nat) : Cluster :=
  modSprig k p fun x => modCtx x a fun y => setQueue y 4 (enqueueWords (queueAt y 4) (ws.map (fun w => (w, t))))

/-! ### Unit commands (R174) -/

/-- The words of a command block. -/
def blockWords (x : Ctx) (r n : Nat) : List Word := (blockRegs r n).map (getReg x)

/-- The command that a context issues from a block of registers. -/
def unitCmd (e : Env) (p : Sp) (r n : Nat) : UCmd :=
  let w := blockWords e.cx r n
  { w0 := w.getD 0 0, w1 := w.getD 1 0, w2 := w.getD 2 0, w3 := w.getD 3 0, sprig := p, ctx := e.a, at_ := e.t }

/-- The unit took another sprig's command in this cycle, or its queue of 8 is full (R174). -/
def unitBusy (taken : List Nat) (len : Nat) (e : Env) : Option Wait :=
  if taken.contains e.t || decide (8 ≤ len) then some .port else none

/-- MEC (0x34). -/
def execMec (c : Cl) (p : Sp) (f : FmtA) (s : State) : Result :=
  runInstr s c.val p.val (wordA 0x34 f) (blockRegs f.rs1.val 4) false
    (inTurn p.val fun e => unitBusy e.k.me.taken e.k.me.queue.length e) fun e t =>
    modCluster t c.val fun k =>
      { k with issued := k.issued + 1, me := { k.me with queue := k.me.queue ++ [unitCmd e p f.rs1.val 4], taken := k.me.taken ++ [e.t] } }

/-- SUC (0x35). -/
def execSuc (c : Cl) (p : Sp) (f : FmtA) (s : State) : Result :=
  runInstr s c.val p.val (wordA 0x35 f) (blockRegs f.rs1.val 2) false
    (inTurn p.val fun e => unitBusy e.k.su.taken e.k.su.queue.length e) fun e t =>
    modCluster t c.val fun k =>
      { k with issued := k.issued + 1, su := { k.su with queue := k.su.queue ++ [unitCmd e p f.rs1.val 2], taken := k.su.taken ++ [e.t] } }

/-- DRC (0x36). -/
def execDrc (c : Cl) (p : Sp) (f : FmtA) (s : State) : Result :=
  runInstr s c.val p.val (wordA 0x36 f) (blockRegs f.rs1.val 2) false
    (inTurn p.val fun e => unitBusy e.k.drw.taken e.k.drw.queue.length e) fun e t =>
    modCluster t c.val fun k =>
      { k with issued := k.issued + 1, drw := { k.drw with queue := k.drw.queue ++ [unitCmd e p f.rs1.val 2], taken := k.drw.taken ++ [e.t] } }

/-! ### Class B generators (R244, R245) -/

/-- One shift of a lane generator. -/
def lfsrShift (g : Word64) : Word64 := if g.getLsbD 0 then (g >>> 1) ^^^ 0xD800000000000000 else g >>> 1

/-- `n` shifts. -/
def lfsrShifts : Nat → Word64 → Word64
  | 0, g => g
  | n + 1, g => lfsrShifts n (lfsrShift g)

/-- One step: the output word is s[15:0] before it, and the state shifts 16 times. -/
def lfsrStep (g : Word64) : BitVec 16 × Word64 := (g.setWidth 16, lfsrShifts 16 g)

/-- Two consecutive output words, the first in [15:0] (R177, R245). -/
def lfsrPair (g : Word64) : Word × Word64 :=
  let a := lfsrStep g
  let b := lfsrStep a.2
  (b.1 ++ a.1, b.2)

/-- RND (0x37). -/
def execRnd (c : Cl) (p : Sp) (f : FmtA) (s : State) : Result :=
  runInstr s c.val p.val (wordA 0x37 f) [] false free fun e t =>
    let r := lfsrPair e.x.lfsr
    let t1 := modCluster t c.val fun k => modSprig k p.val fun x =>
      { x with lfsr := r.2, cnt := { x.cnt with rnd := x.cnt.rnd + 32 } }
    modIssuer t1 c.val p.val e.a fun x => putReg x f.rd.val r.1 (e.t + 2)

/-! ### Control (R169, R178–R182) -/

/-- LOOP (0x38): L in [21], LAST in [20:13], COUNT − 1 in [12:0]; the body starts at the next address. -/
def execLoop (c : Cl) (p : Sp) (f : FmtC) (s : State) : Result :=
  runInstr s c.val p.val (wordC 0x38 f) [] false free fun e t =>
    let last := bits f.imm.toNat 20 13
    let l : Option LoopLevel :=
      if last ≤ e.cx.pc then none else some { first := e.cx.pc + 1, last := last, left := bits f.imm.toNat 12 0 }
    modIssuer t c.val p.val e.a fun x => if bit f.imm.toNat 21 then { x with loop1 := l } else { x with loop0 := l }

/-- QSET (0x39): the next cycle issues from context IMM22[1:0]; to the active context it acts as NOP (R178). Its issue
cycle counts as a switch cycle in place of a busy one. -/
def execQset (c : Cl) (p : Sp) (f : FmtC) (s : State) : Result :=
  runInstr s c.val p.val (wordC 0x39 f) [] false free fun e t =>
    let n : Fin 4 := ⟨f.imm.toNat % 4, Nat.mod_lt _ (by decide)⟩
    if n = e.a then t
    else modCluster t c.val fun k => modSprig k p.val fun x =>
      { x with active := n, cnt := { x.cnt with busy := x.cnt.busy - 1, switch := x.cnt.switch + 1 } }

/-- An inbound queue of a context holds an entry (R182). -/
def queuesHold (x : Ctx) : Bool :=
  (List.range 5).any fun q => !((queueAt x q).q.isEmpty && (queueAt x q).fly.isEmpty)

/-- END (0x3A): the context is complete; an entry left in a queue sets QLEFT, the first of the tick with its sprig and
context (R182). -/
def execEndI (c : Cl) (p : Sp) (f : FmtC) (s : State) : Result :=
  runInstr s c.val p.val (wordC 0x3A f) [] false free fun e t =>
    let t1 := modIssuer t c.val p.val e.a fun x => { x with ended := true }
    if queuesHold e.cx then
      orSpg (modCluster t1 c.val fun k => { k with qleft := k.qleft.or (some (p, e.a)) }) c.val 8
    else t1

/-- IDLE (0x3B): wait IMM22[15:0] + 1 cycles after issue. -/
def execIdle (c : Cl) (p : Sp) (f : FmtC) (s : State) : Result :=
  runInstr s c.val p.val (wordC 0x3B f) [] false free fun e t =>
    modIssuer t c.val p.val e.a fun x => { x with idleLeft := bits f.imm.toNat 15 0 + 1 }

/-- Cycles of an IDLE that the sprig can spend from its present cycle: under laying, up to the end of the slot (R179). -/
def idleNow (k : Cluster) (x : Sprig) (n : Nat) : Nat :=
  if laying k then Nat.min n (slotEnd k x.cycle - x.cycle) else n

/-- IDLE_WAIT_END: the active cycles of an IDLE have passed. -/
def execIdleWaitEnd (c : Cl) (p : Sp) (x : Cx) (s : State) : Result :=
  .next <|
    let k := clusterAt s c.val
    let sp := sprigAt k p.val
    if clusterRuns s k ∧ sp.active = x ∧ 0 < (ctxAt sp x).idleLeft ∧ !switchDue k sp then
      let n := idleNow k sp (ctxAt sp x).idleLeft
      modCluster s c.val fun k => modSprig k p.val fun y =>
        modCtx { y with cycle := y.cycle + n, cnt := { y.cnt with idle := y.cnt.idle + n } } x
          fun z => { z with idleLeft := z.idleLeft - n }
    else s

/-- Cycles since the local boundary at WORK cycle `t`: WORK starts at the first cycle at or after 1,000 ns (R29). -/
def sinceBoundary (s : State) (t : Nat) : Nat := nsToCycles 1000 s.avsDev.grade + t

/-- The special values of SRD (Table — Instruction set); FN 7 has none, so its value is free. -/
def specialValue (s : State) (e : Env) (c p fn : Nat) : Word :=
  let i := instAt s e.h
  match fn with
  | 0 => BitVec.ofNat 32 p
  | 1 => BitVec.ofNat 32 (localId i c)
  | 2 => BitVec.ofNat 32 (i.w + i.h * 65536)
  | 3 => BitVec.ofNat 32 e.a.val
  | 4 => BitVec.ofNat 32 (sinceBoundary s e.t)
  | 5 => i.htick.setWidth 32
  | 6 => s.tck.devTick.setWidth 32
  | _ => Config.unstated 2 c p

/-- SRD (0x3C). -/
def execSrd (c : Cl) (p : Sp) (f : FmtA) (s : State) : Result :=
  runInstr s c.val p.val (wordA 0x3C f) [] false free fun e t =>
    modIssuer t c.val p.val e.a fun x =>
      if predOn e.cx f.pred f.pneg then putReg x f.rd.val (specialValue s e c.val p.val (f.fn.toNat % 8)) (e.t + 1)
      else holdReg x f.rd.val (e.t + 1)

/-- A context of the sprig has a program that has not ended. -/
def sprigLive (x : Sprig) : Bool := (List.finRange 4).any fun a => x.prog.getLsbD a.val && !(ctxAt x a).ended

/-- LAYING_SLOT_SWITCH (R179): the slot's first cycle switches to the context whose slot it is. The rest of a slot whose
context has ended, or holds no program, idles. The rotation goes on to the end of WORK. -/
def execLayingSlotSwitch (c : Cl) (p : Sp) (s : State) : Result :=
  .next <|
    let k := clusterAt s c.val
    let x := sprigAt k p.val
    let idleSlot := !switchDue k x && (!x.prog.getLsbD x.active.val || (ctxAt x x.active).ended)
    let cyc := if idleSlot then slotEnd k x.cycle else x.cycle
    if clusterRuns s k && laying k && x.prog != 0 && (idleSlot || switchDue k x) && decide (cyc < workCycles s) then
      let n : Fin 4 := ⟨cyc / k.layPeriod % k.layDepth % 4, Nat.mod_lt _ (by decide)⟩
      modCluster s c.val fun k => modSprig k p.val fun y =>
        { y with cycle := cyc + 1, active := n,
                 cnt := { y.cnt with switch := y.cnt.switch + 1, idle := y.cnt.idle + (cyc - x.cycle) } }
    else s

/-- The switch cycles of a laid sprig from cycle `t` to the end of WORK at cycle `w`: the multiples of T in between (R179). -/
def switchesLeft (k : Cluster) (t w : Nat) : Nat :=
  if laying k then (w + k.layPeriod - 1) / k.layPeriod - (Nat.max t 1 + k.layPeriod - 1) / k.layPeriod else 0

/-- The end of WORK: the cycles that a programmed sprig has left are those of contexts that have ended (SPG IDLE), with the switch
cycles of laying among them. -/
def finishSprig (k : Cluster) (w : Nat) (x : Sprig) : Sprig :=
  if x.prog = 0 ∨ w ≤ x.cycle then x
  else
    let n := switchesLeft k x.cycle w
    { x with cycle := w, cnt := { x.cnt with switch := x.cnt.switch + n, idle := x.cnt.idle + (w - x.cycle - n) } }

/-- The end of WORK at a cluster that still runs: idle cycles are counted, and every write to the store has landed. -/
def finishCluster (w : Nat) (k : Cluster) : Cluster :=
  let k1 := settleAll k
  if k.stopped then k1 else { k1 with sprigs := mmap {} (fun _ x => finishSprig k w x) k1.sprigs }

/-- Every unit of a cluster has drained and its tags are back (R181). -/
def clusterDrained (k : Cluster) : Bool :=
  k.sprigs.all (fun p => !sprigLive p.2) && k.me.queue.isEmpty && k.me.run.isNone && k.su.queue.isEmpty &&
    k.su.sweepRun.isNone && k.su.bndRun.isNone && k.drw.queue.isEmpty && k.drw.run.isNone && k.ops.isEmpty

/-- The hedge has reached its end marker (R181). -/
def atEndMarker (s : State) (h : Nat) : Bool := (clustersOf (instAt s h)).all fun c => clusterDrained (clusterAt s c)

/-- END_MARKER_REACHED (R181): noted while the hedge runs its WORK. -/
def execEndMarkerReached (h : InstId) (s : State) : Result :=
  .next <|
    if (instAt s h.val).st = .running ∧ s.tck.phase = .work ∧ ¬ discarded (instAt s h.val) ∧ atEndMarker s h.val then
      modInst s h.val fun i => { i with endMarker := true }
    else s

end Sys2Proof.Machine
end

