-- ==== Sys2Proof/Machine/Transfer.lean ====
section
/-! DEFINITION. Machine/Transfer.lean: XFER and its completion (R16, R65, R136, R137, R176, R260, R288, R493): tags, the paths that
a transfer may take, the accesses and messages it makes, and what comes back. -/

namespace Sys2Proof.Machine

/-! ### Tags (R136, R137) -/

/-- The lowest free tag of an issuing unit: sprig × 4 + context, 64 the sweep engine, 65 the boundary engine. A unit that the plan
image assigns no set has all of 0–63: the rule does not say (DESIGN CHOICE, entry 50). -/
def freeTag (k : Cluster) (u : Nat) : Option Nat :=
  (((mget k.tagSets none u).getD (List.range 64)).filter fun t => !(k.ops.any (fun o => o.tag == t))).foldl
    (fun m t => match m with | none => some t | some x => some (Nat.min x t)) none

/-- Put an operation in flight. -/
def addOp (s : State) (c : Nat) (o : Op) : State :=
  modCluster s c fun k => { k with ops := k.ops ++ [o], tagPeak := Nat.max k.tagPeak (k.ops.length + 1) }

def dropOp (s : State) (c tag : Nat) : State :=
  modCluster s c fun k => { k with ops := k.ops.filter (fun o => o.tag != tag) }

/-! ### The XFER block (Table — XFER block) -/

/-- A transfer block decoded. -/
structure XBlock where
  store : Nat
  remote : Nat
  target : Nat
  lid : Nat
  n : Nat
  vc : Nat
  read : Bool
  deriving DecidableEq, Repr

def xblock (w0 w1 w2 w3 : Word) : XBlock :=
  { store := bits w0.toNat 19 6 * 64, remote := (w1.toNat + bits w2.toNat 15 0 * 2 ^ 32) / 64 * 64,
    target := bits w2.toNat 17 16, lid := bits w2.toNat 27 18, n := bits w3.toNat 11 0 + 1, vc := bits w3.toNat 13 12,
    read := bit w3.toNat 14 }

/-- Malformed: a reserved target or VC, or a hedge-local cluster id at or beyond W × H (status 3). -/
def xMalformed (i : Inst) (b : XBlock) : Bool :=
  b.target == 3 || b.vc == 1 || b.vc == 3 || (b.target == 2 && decide (i.w * i.h ≤ b.lid))

/-- The die of a device physical address. -/
def dpaDie (a : Nat) : Nat := if isHbm a then stackOf a else sliceIndexOf a / 32

/-- The address lies in a mirror area of the hedge (R273). -/
def inMirror (s : State) (i : Inst) (a : Nat) : Bool :=
  (clustersOf i).any fun c => match (clusterAt s c).carried.mirror with
    | some m => decide (m ≤ a ∧ a < m + 65536)
    | none => false

/-- The device physical address of line `j` of a transfer, and the window line that a write makes pending; none when the
access is refused (R16, R68, R262, R263, R266). -/
def xLine (s : State) (i : Inst) (die : Nat) (b : XBlock) (j : Nat) : Option (Nat × Option Nat) :=
  let va := b.remote + 64 * j
  let r :=
    if b.target = 0 then ((hedgeSlice i (va / unit2M)).map (fun a => (a + va % unit2M, none)))
    else if b.read then (planReadPhys i va).map (fun a => (a, none))
    else planWritePhys i va
  match r with
  | some (a, k) => if dpaDie a = die ∧ !(inMirror s i a) then some (a, k) else none
  | none => none

/-- The lines of a transfer, or none when it is refused whole (R176): a target-1 range lies wholly on one stack, in
slices, or in one window. -/
def xLines (s : State) (i : Inst) (die : Nat) (b : XBlock) : Option (List (Nat × Option Nat)) :=
  let l := (List.range b.n).map (xLine s i die b)
  if l.all Option.isSome then
    let l := l.filterMap (fun o => o)
    let wins := (List.range b.n).map (fun j => (findWin i (b.remote + 64 * j)).map (·.1))
    let oneWin := (wins.head?.bind (fun o => o)).isSome && wins.all (fun w => w == wins.head?.bind (fun o => o))
    let noWin := wins.all Option.isNone
    let oneKind := l.all (fun p => isHbm p.1) || l.all (fun p => !(isHbm p.1))
    if b.target = 0 ∨ oneWin ∨ (noWin ∧ oneKind) then some l else none
  else none

/-- The cluster-store address of beat `j`, wrapping at 1 MiB (R176). -/
def beatAddr (b : XBlock) (j : Nat) : Nat := (b.store + 64 * j) % 0x100000

/-- The lines of the cluster store that a write sends, by beat: a transfer reads them in the cycle in which it issues
(entry 17). With the number of free choices. -/
def sendLines (k : Cluster) (b : XBlock) (t fresh : Nat) : List (Nat × List Byte) × Nat :=
  let m := storeSeen k t t fresh
  ((List.range b.n).map fun j => (j, readBytes m.1 (beatAddr b j) 64), m.2)

/-- `n` flits to a cluster outside the hedge are dropped at their router and counted (R65). -/
def countWallOut (s : State) (h n : Nat) : State :=
  touch (modInst s h fun i => { i with wallOut := i.wallOut + BitVec.ofNat 32 n }) (pgHdg h)

/-! ### XFER (R176) -/

/-- A refused or malformed transfer is a REPLAY fault of the hedge, logged with code 0x2009 (R68, R176, R263, R379). -/
def xferFault (s : State) (c h : Nat) (b : XBlock) (status : Nat) : State :=
  let s1 := logErr s { sev := .replay, srcType := 0x32, srcInst := halfOf c, code := 0x2009, inst := h,
                       detail := if status = 3 then clusterDetail c (pcol s c) else b.remote }
  let s2 := if status = 3 then s1
    else if b.target = 1 then bump s1 (pgHbcI h) 0
    else bump s1 (pgDie (dieOf c) (b2n (eastHalf c))) 0
  replayFault s2 h

/-- The status with which a transfer completes unless a line proves bad, and its kind. -/
def xKind (s : State) (i : Inst) (c : Nat) (b : XBlock) : Nat × OpKind :=
  if xMalformed i b then (3, .refused)
  else if b.target = 2 then (0, .cluster ⟨globalId i b.lid % 512, Nat.mod_lt _ (by decide)⟩)
  else match xLines s i (dieOf c) b with
    | none => (1, .refused)
    | some l => (0, if l.all (fun p => !(isHbm p.1)) then .slice else .hbm)

/-- The path that a transfer's first line names, whether or not the hedge may use it: an address of its own die, or none. -/
def namedPath (i : Inst) (c : Nat) (b : XBlock) : Option Nat :=
  let a := if b.target = 0 then (hedgeSlice i (b.remote / unit2M)).map (· + b.remote % unit2M)
    else if b.target = 1 then physOf i (readVa i b.remote) else none
  a.filter fun a => dpaDie a == dieOf c

/-- Beats of a slice access in cycles from their issue to their completion at the issuer (Table — Fixed latencies). -/
def sliceCycles (read : Bool) : Nat := if read then 20 else 16

/-- Cycles from the issue of a slice access to its arrival at the slice port (R288). -/
def portDelay (read : Bool) : Nat := if read then 4 else 15

/-- The WORK cycle in which a transfer's first access leaves the cluster port, one access per cycle in each direction (R126). -/
def portBegin (k : Cluster) (read : Bool) (t : Nat) : Nat := Nat.max t (if read then k.portRead else k.portWrite)

/-- Its accesses take the cluster port for `n` cycles from `beg` on. -/
def takePort (k : Cluster) (read : Bool) (beg n : Nat) : Cluster :=
  if read then { k with portRead := beg + n } else { k with portWrite := beg + n }

/-- The accesses of a slice transfer reach their ports (R126, R288). XBR PG_CNT1 counts a transfer that pays the stitch penalty
once, by its first line: which accesses it counts the spec does not say (DESIGN CHOICE, entry 51). -/
def startSlice (s : State) (c h : Nat) (o : Op) (b : XBlock) (l : List (Nat × Option Nat)) : State :=
  let i := instAt s h
  let beg := portBegin (clusterAt s c) b.read o.at_
  let acc := ((List.range l.length).zip l).map fun p =>
    ({ lid := localId i c, c := ⟨c % 512, Nat.mod_lt _ (by decide)⟩, tag := o.tag, beat := p.1, dpa := p.2.1, key := p.2.2,
       read := b.read, at_ := beg + p.1 + stitchPenalty c p.2.1 + portDelay b.read } : Access)
  let s1 := modNet (modCluster s c fun k => takePort k b.read beg b.n) h fun x => { x with acc := x.acc ++ acc }
  if l.head?.any (fun p => stitchPenalty c p.1 == 6) then bump s1 (pgDie (dieOf c) (b2n (eastHalf c))) 1 else s1

/-- A refused transfer takes the cycles of the access it names, or of one to a slice of the cluster's own half (R176). -/
def startRefused (s : State) (c h : Nat) (o : Op) (b : XBlock) : State :=
  match namedPath (instAt s h) c b with
  | some a =>
    if isHbm a then
      enqueue (modOp s c o.tag fun o => { o with left := 64 * b.n }) (dieOf c)
        { owner := h, kind := .hbmOp ⟨c % 512, Nat.mod_lt _ (by decide)⟩ o.tag, left := 64 * b.n, planned := true }
    else modOp s c o.tag fun o => { o with done := o.at_ + sliceCycles b.read + b.n - 1 + stitchPenalty c a }
  | none => modOp s c o.tag fun o => { o with done := o.at_ + sliceCycles b.read + b.n - 1 + (if c % 8 = 3 then 6 else 0) }

/-- Start a transfer that has its tag: its accesses at slice ports, its slots on the stack's calendar, or its first message. -/
def startXfer (s : State) (c h : Nat) (o : Op) : State :=
  let b := xblock o.w0 o.w1 o.w2 o.w3
  let s1 := addOp s c o
  match o.kind with
  | .refused =>
    startRefused (if b.target = 2 ∧ (instAt s h).w * (instAt s h).h ≤ b.lid then countWallOut s1 h (if b.read then 1 else b.n)
      else s1) c h o b
  | .hbm => enqueue s1 (dieOf c) { owner := h, kind := .hbmOp ⟨c % 512, Nat.mod_lt _ (by decide)⟩ o.tag, left := 64 * b.n,
                                   planned := true }
  | .cluster dst => sendFlits s1 h c 0 ⟨c % 512, Nat.mod_lt _ (by decide)⟩ o.tag false dst
      ⟨b.vc % 4, Nat.mod_lt _ (by decide)⟩ (if b.read then 1 else b.n) fun j => o.at_ + j
  | _ =>
    match xLines s (instAt s h) (dieOf c) b with
    | some l => startSlice s1 c h o b l
    | none => s1

/-- What is still to move when a transfer starts: beats, bytes of HBM, or flits. -/
def firstLeft (b : XBlock) : OpKind → Nat
  | .slice => b.n
  | .hbm => 64 * b.n
  | .cluster _ => if b.read then 1 else b.n
  | _ => 0

/-- XFER (0x2E): takes the lowest free tag of its context's set; without one it waits (R136, R137). -/
def execXfer (c : Cl) (p : Sp) (f : FmtA) (s : State) : Result :=
  let w := wordA 0x2E f
  let rs := blockRegs f.rs1.val 4
  runInstr (storeReady s c.val p.val w rs) c.val p.val w rs false
    (inTurn p.val fun e => if (freeTag e.k (p.val * 4 + e.a.val)).isSome then none else some .tag) fun e t =>
    match freeTag e.k (p.val * 4 + e.a.val) with
    | none => t
    | some tag =>
      let w := blockWords e.cx f.rs1.val 4
      let b := xblock (w.getD 0 0) (w.getD 1 0) (w.getD 2 0) (w.getD 3 0)
      let sk := xKind t (instAt t e.h) c.val b
      let d := if b.read then ([], 0) else sendLines e.k b e.t t.fresh
      startXfer (if b.read then t else reportPoison (burn t d.2) c.val b.store (64 * b.n)) c.val e.h
        { tag := tag, kind := sk.2, w0 := w.getD 0 0, w1 := w.getD 1 0, w2 := w.getD 2 0, w3 := w.getD 3 0,
          notify := f.fn.getLsbD 0, sprig := p, ctx := e.a, at_ := e.t, status := sk.1, served := false,
          left := firstLeft b sk.2, done := e.t, data := d.1, bits := [], bad := [] }

/-! ### Sheet images (R16, R207, R208, R263) -/

/-- The lines of the sheet image at `va` that the cluster may read: their number in the image and their address, all in slices or all
in HBM as the first is. -/
def sheetLines (s : State) (i : Inst) (die va : Nat) : List (Nat × Nat) :=
  let l := (List.range 10240).filterMap fun j => (planReadPhys i (va + 64 * j)).bind fun a =>
    if dpaDie a = die ∧ !(inMirror s i a) then some (j, a) else none
  l.filter fun p => isHbm p.2 == l.head?.any fun q => isHbm q.2

/-- The sheet image that a SWAP names: its two words hold the address. -/
def sheetVaOf (o : Op) : Nat := o.w0.toNat + 2 ^ 32 * o.w1.toNat

/-- A SWAP reads its sheet from cycle `t` on: its accesses to the slices, or slots of the stack. -/
def startSheet (s : State) (c h : Nat) (o : Op) (l : List (Nat × Nat)) : State :=
  let s1 := addOp s c o
  match o.kind with
  | .sheet true => enqueue s1 (dieOf c)
      { owner := h, kind := .hbmOp ⟨c % 512, Nat.mod_lt _ (by decide)⟩ o.tag, left := 64 * l.length, planned := true }
  | _ =>
    let i := instAt s h
    let beg := portBegin (clusterAt s c) true o.at_
    let acc := ((List.range l.length).zip l).map fun p =>
      ({ lid := localId i c, c := ⟨c % 512, Nat.mod_lt _ (by decide)⟩, tag := o.tag, beat := p.2.1, dpa := p.2.2, key := none,
         read := true, at_ := beg + p.1 + stitchPenalty c p.2.2 + portDelay true } : Access)
    modNet (modCluster s1 c fun k => takePort k true beg l.length) h fun x => { x with acc := x.acc ++ acc }

/-! ### HBM (R260) -/

/-- The lines that an operation moves: its beat, the address, and the window line that a write makes pending. -/
def opLines (s : State) (h c : Nat) (o : Op) : List (Nat × Nat × Option Nat) :=
  match o.kind with
  | .sheet _ => (sheetLines s (instAt s h) (dieOf c) (sheetVaOf o)).map fun p => (p.1, p.2, none)
  | _ =>
    let b := xblock o.w0 o.w1 o.w2 o.w3
    match xLines s (instAt s h) (dieOf c) b with
    | some l => ((List.range l.length).zip l).map fun p => (p.1, p.2.1, p.2.2)
    | none => []

/-- The operation brings lines to its cluster. -/
def opReads (o : Op) : Bool := match o.kind with | .sheet _ => true | _ => bit o.w3.toNat 14

/-- The `j`-th line that a slot starting at `ns` moves for an operation: a read reaches the cluster's port at its fixed time, one line
per cycle; a line that this delays makes the plan diverge. -/
def hbmLine (c h ns tag : Nat) (reads : Bool) (s : State) (p : Nat × Nat × Nat × Option Nat) : State :=
  let (j, beat, dpa, key) := p
  let k := clusterAt s c
  let stitch := if c % 8 = 3 then 6 else 0
  if reads then
    let due := cycleAt s (ns + 80) + 24 + stitch + j
    let t := Nat.max due k.hbmPort
    let bad := poisoned s dpa
    let s1 := bringLine c tag beat t (if bad then List.replicate 64 0 else readBytes s.mem dpa 64)
      (modCluster s c fun k => { k with hbmPort := t + 1 })
    let s2 := modOp s1 c tag fun o => { o with done := Nat.max o.done t, bad := if bad then o.bad ++ [beat] else o.bad }
    if due < t then divergeFault s2 h else s2
  else
    let line := ((opAt k tag).bind fun o => (o.data.find? fun d => d.1 == beat).map (·.2)).getD []
    let s1 := match key with
      | some q => modInst (memWrite s dpa line) h fun i => { i with pend := mset i.pend false q true }
      | none => memWrite s dpa line
    modOp s1 c tag fun o => { o with done := Nat.max o.done (cycleAt s (ns + 40) + 24 + stitch + j) }

/-- A slot of the stack's calendar that starts at `ns` moves `n` bytes of an operation. A refused one takes its slots and moves
nothing (R176). -/
def moveHbm (s : State) (c tag ns n : Nat) : State :=
  let k := clusterAt s c
  match opAt k tag with
  | none => s
  | some o =>
    if !(clusterRuns s k) then s
    else
      let s1 := modOp s c tag fun o => { o with left := o.left - n }
      if o.kind = .refused then
        let due := cycleAt s (ns + (if opReads o then 80 else 40)) + 24 + (if c % 8 = 3 then 6 else 0) + n / 64 - 1
        modOp s1 c tag fun o => { o with done := Nat.max o.done due }
      else
        let l := opLines s k.owner c o
        let now := (l.drop (l.length - o.left / 64)).take (n / 64)
        ((List.range now.length).zip now).foldl (hbmLine c k.owner ns tag (opReads o)) s1

/-! ### Transfers between clusters (R493) -/

/-- The cycles in which the far cluster reads `n` lines, one per cycle from `t` on, each when its bank is free. -/
def farReads (w1 : Word) : Nat → Nat → Nat → Cluster → List Nat × Cluster
  | 0, _, _, k => ([], k)
  | n + 1, j, t, k =>
    let b := bankOf (farAddr w1 j % 0x100000)
    let u := meshBank k b 64 t
    let r := farReads w1 n (j + 1) (u + 1) { k with banks := mset k.banks 0 (u * 16 + b) 2 }
    (u :: r.1, r.2)

/-- XFER_REMOTE_SERVE: everything of the message has come; the far cluster acknowledges the lines it wrote, or reads its own, from
2 cycles after the request on, and sends them back on the VC of the request. -/
def execXferRemoteServe (c : Cl) (tag : Fin 64) (s : State) : Result :=
  .next <|
    match opAt (clusterAt s c.val) tag.val with
    | some o =>
      match o.kind with
      | .cluster dst =>
        let h := ownerOf s c.val
        let came (s : State) : Bool := (opAt (clusterAt s c.val) tag.val).any fun o => o.left == 0
        if clusterRuns s (clusterAt s c.val) ∧ !o.served then
          let s1 := netUntil h came netFuel s
          match opAt (clusterAt s1 c.val) tag.val with
          | some o =>
            if o.left ≠ 0 then s1
            else
              let b := xblock o.w0 o.w1 o.w2 o.w3
              let vc : Fin 4 := ⟨b.vc % 4, Nat.mod_lt _ (by decide)⟩
              if b.read then
                let far := clusterAt s1 dst.val
                let r := farReads o.w1 b.n 0 (o.done + 2) far
                let lines := ((List.range b.n).zip r.1).map fun p =>
                  (p.1, readBytes (storeSeen far p.2 p.2 (s1.fresh + p.1 * 1024)).1 (farAddr o.w1 p.1 % 0x100000) 64)
                let s2 := modOp (reportPoison (setCluster (burn s1 (b.n * 1024)) dst.val r.2) dst.val
                  (farAddr o.w1 0) (Nat.min (64 * b.n) (0x100000 - farAddr o.w1 0))) c.val tag.val fun o =>
                  { o with served := true, data := lines, left := b.n }
                sendFlits s2 h dst.val 0 c tag.val true c vc b.n fun j => r.1.getD j 0
              else
                let s2 := modOp s1 c.val tag.val fun o => { o with served := true, left := 1 }
                sendFlits s2 h dst.val 0 c tag.val true c vc 1 fun _ => o.done
          | none => s1
        else s
      | _ => s
    | none => s

/-! ### Completion (R176, R281, R287) -/

/-- The lines that a refused read would have written into the store receive zero, each in its own cycle (R176). -/
def zeroLines (k : Cluster) (b : XBlock) (done : Nat) : Cluster :=
  (List.range b.n).foldl (fun k j => landAt k (done + j + 1 - b.n) (beatAddr b j) (List.replicate 64 0)) k

/-- What a transfer that has moved everything leaves, and its final status: bad lines of a read carry zero (R281). -/
def settleXfer (s : State) (h c : Nat) (o : Op) (bad : List Nat) : State × Nat :=
  let b := xblock o.w0 o.w1 o.w2 o.w3
  match o.kind with
  | .refused => (xferFault (if b.read then modCluster s c fun k => zeroLines k b o.done else s) c h b o.status, o.status)
  | .cluster _ => (s, 0)
  | .exportTo _ => (s, 0)
  | .sheet _ => (s, 0)
  | _ =>
    let l := opLines s h c o
    let late := bad.filter fun j => b.read && decide (j < b.n) && !(o.bad.contains j)
    let s1 := modCluster s c fun k =>
      late.foldl (fun k j => landAt k o.done (beatAddr b j) (List.replicate 64 0)) k
    let all := l.filter fun p => (o.bad ++ late).contains p.1
    if all.isEmpty then (s1, 0) else (replayFault ((all.map (·.2.1)).foldl badLine s1) h, 2)

/-- XFER_COMPLETE: the transfer has moved everything; the tag returns and with NOTIFY the completion word enters U, for a target-2
transfer one cycle after it completes (R176, R493). While U is full it waits, a cycle at a time; these count as tag stall cycles,
for its tag is what stays taken (entry 52). `bad` are the beats whose line proved uncorrectable. -/
def execXferComplete (c : Cl) (tag : Fin 64) (bad : List Nat) (s : State) : Result :=
  .next <|
    let h := ownerOf s c.val
    let whole (s : State) : Bool := (opAt (clusterAt s c.val) tag.val).any fun o => o.left == 0
    let s1 := if clusterRuns s (clusterAt s c.val) then netUntil h whole netFuel s else s
    let k := clusterAt s1 c.val
    match opAt k tag.val with
    | some o =>
      let far := match o.kind with | .cluster _ => true | _ => false
      let ready := match o.kind with
        | .cluster _ => o.served && o.left == 0
        | .exportTo _ => false
        | .sheet _ => false
        | _ => o.left == 0
      if clusterRuns s1 k && ready then
        if !o.notify || uRoom k o.sprig.val o.ctx 1 then
          let m := settleXfer s1 h c.val o bad
          let s2 := dropOp m.1 c.val tag.val
          if o.notify then
            modCluster s2 c.val fun k =>
              deliverU k o.sprig.val o.ctx [BitVec.ofNat 32 (tag.val + 64 * m.2)] (o.done + b2n far)
          else s2
        else modOp (modCluster s1 c.val fun k => { k with tagStall := k.tagStall + 1 }) c.val tag.val fun o =>
          { o with done := o.done + 1 }
      else s1
    | none => s1

end Sys2Proof.Machine
end

