-- ==== Sys2Proof/Machine/Fabric.lean ====
section
/-! DEFINITION. Machine/Fabric.lean: faults of the fabric (05_fabric.md): flit ECC, closed ports, die-link CRC, lanes, loss
and retraining, and the stitch; and the pads that keep every path at its fixed latency (R116, R118, R119). -/

namespace Sys2Proof.Machine

/-- FLIT_ECC_ERROR (R125): a single-bit error is corrected in line; a multi-bit error discards the flit and the hedge's
tick. -/
def execFlitEccError (c : Cl) (multi : Bool) (s : State) : Result :=
  .next <|
    let h := ownerOf s c.val
    let r (sev : Sev) (code : Nat) : Report :=
      { sev := sev, srcType := 0x40, srcInst := c.val, code := code, inst := h, detail := clusterDetail c.val (pcol s c.val) }
    if multi then replayFault (logErr s (r (if h = 0 then .note else .replay) 0x2002)) h
    else modCluster (logErr s (r .note 0x2001)) c.val fun k => { k with flitCorrected := k.flitCorrected + 1 }

/-- The instance on whose side of a wall a cluster stands: its owner, or for a dormant cluster the one that a reshape makes it
join (R104). -/
def wallOwner (s : State) (c : Nat) : Nat :=
  if ownerOf s c ≠ 0 then ownerOf s c
  else if (clusterAt s c).dormant then
    (instIds.find? fun h => match (instAt s h).reshape with
      | some x => (instAt s h).st == .topiary && inRect x.x0 x.y0 x.w x.h c
      | none => false).getD 0
  else 0

/-- FLIT_AT_CLOSED_PORT (R66): discarded without a credit and counted in HDG_WALLIN of the receiving hedge. -/
def execFlitAtClosedPort (c : Cl) (s : State) : Result :=
  .next <|
    let h := wallOwner s c.val
    if h = 0 then s
    else
      logErr (touch (modInst s h fun i => { i with wallIn := i.wallIn + 1 }) (pgHdg h))
        { sev := .note, srcType := 0x40, srcInst := c.val, code := 0x2008, inst := h,
          detail := clusterDetail c.val (pcol s c.val) }

/-- The retry of a flit takes a position of the slot in progress of a mesh module in its direction (R130); whether one is left. Which
die's slot a flit of a spine module belongs to is not stated, so there a position is never short (entry 54). -/
def retryPosition (s : State) (m dir : Nat) : State × Bool :=
  if m / 4 < 10 ∧ m % 4 < 3 then
    let cal := calFirst 3 + m / 4 * 6 + m % 4 * 2 + dir
    if 64 * (calAt s cal).used < slotCapacity s cal then (modCal s cal fun k => { k with used := k.used + 1 }, true) else (s, false)
  else (s, true)

/-- DIE_LINK_CRC_FAIL (R130): the retry is counted and takes a flit position of the same slot; one that fails, or finds no position,
makes the flit late, a REPLAY fault of the hedge. `dir` is 0 east or south, 1 west or north. -/
def execDieLinkCrcFail (m : ModId) (dir : Fin 2) (h : InstId) (retryOk : Bool) (s : State) : Result :=
  .next <|
    let r := retryPosition (bump s (pgD2d m.val) 0) m.val dir.val
    if retryOk && r.2 then r.1
    else
      replayFault (logErr (bump r.1 (pgD2d m.val) 1)
        { sev := if h.val = 0 then .note else .replay, srcType := 0x31, srcInst := m.val, code := 0x2003, inst := h.val,
          detail := m.val }) h.val

/-- A module with no spare lane left degrades to 32 lanes (R132). -/
def degradeModule (s : State) (m lane : Nat) : State :=
  logErr (touch (modD2d s m fun x => { x with degraded := true }) (pgD2d m))
    { sev := .replay, srcType := 0x31, srcInst := m, code := 0x2005, inst := 0, detail := lane }

/-- DIE_LINK_LANE_REPAIR (R131, R132): in OPEN, a lane that had more than ERRTHR errors in a tick moves to a spare lane, and the
module's slots idle; with no spare left the module degrades to 32 lanes. -/
def execDieLinkLaneRepair (m : ModId) (lane : Fin 64) (errs : Nat) (s : State) : Result :=
  .next <|
    let d := d2dAt s m.val
    if s.tck.phase ≠ .openP ∨ d.badLane.getLsbD lane.val ∨ errs ≤ d.errThr then s
    else
      let s := recordLane s m.val lane.val
      let bad (x : D2d) : D2d := { x with badLane := x.badLane ||| (1 <<< lane.val), repairing := true }
      if d.spares < 4 then
        logErr (bump (modD2d s m.val fun x => { bad x with spares := x.spares + 1 }) (pgD2d m.val) 2)
          { sev := .absorb, srcType := 0x31, srcInst := m.val, code := 0x2004, inst := 0, detail := lane.val }
      else degradeModule (modD2d s m.val bad) m.val lane.val

/-- The instances that own a slot of a module. -/
def moduleOwners (s : State) (m : Nat) : List Nat :=
  instIds.filter fun h => (moduleCals m).any fun c => decide (0 < ownedSlots (calAt s c).table h)

/-- DIE_LINK_LOSS (R133): retraining starts at once, and each hedge that owns a slot of the module has its tick discarded. -/
def execDieLinkLoss (m : ModId) (s : State) : Result :=
  .next <|
    if (d2dAt s m.val).retraining then s
    else
      let s1 := logErr (touch (modD2d s m.val fun x => { x with up := false, retraining := true }) (pgD2d m.val))
        { sev := .replay, srcType := 0x31, srcInst := m.val, code := 0x2006, inst := 0, detail := m.val }
      (moduleOwners s1 m.val).foldl replayFault s1

/-- DIE_LINK_RETRAIN_DONE (R133). -/
def execDieLinkRetrainDone (m : ModId) (s : State) : Result :=
  .next <|
    if (d2dAt s m.val).retraining then
      bump (modD2d s m.val fun x => { x with up := true, retraining := false }) (pgD2d m.val) 3
    else s

/-- The spare of a stitch wire group takes over (R127). -/
def takeStitch (s : State) (key : Nat) : State :=
  touch (touch (recordStitch { s with fabric := { s.fabric with stitch := mset s.fabric.stitch false key true } } key)
    (pgDie (key / 64) 0)) (pgDie (key / 64) 1)

/-- The groups that wait for the COMMIT/OPEN window are repaired at its start. -/
def repairStitch (s : State) : State :=
  s.fabric.stitchPend.foldl (fun t p => takeStitch t p.1) { s with fabric := { s.fabric with stitchPend := [] } }

/-- STITCH_WIRE_FAULT (R127): the group's spare takes over, in the COMMIT/OPEN window; a second fault in the group holds every hedge
that covers the die, with an event cause that no rule states (a free value). -/
def execStitchWireFault (d : Die) (group : Fin 64) (s : State) : Result :=
  .next <|
    let key := d.val * 64 + group.val
    let r (sev : Sev) : Report :=
      { sev := sev, srcType := 0x32, srcInst := d.val * 2, code := 0x2007, inst := 0, detail := group.val }
    if mget s.fabric.stitch false key || mget s.fabric.stitchPend false key then
      (instsOnDie s d.val).foldl (fun t h => holdFault t h (Config.freeNat s.fresh)) (logErr (burn s 1) (r .hold))
    else
      logErr (if s.tck.phase = .openP ∨ s.tck.phase = .commit then takeStitch s key
        else { s with fabric := { s.fabric with stitchPend := mset s.fabric.stitchPend false key true } }) (r .absorb)

/-! ### Physical columns and pads (R116, R118, R119) -/

/-- The physical column lies in the east half (R116, R126). -/
def physEast (s : State) (c : Nat) : Bool := decide (4 ≤ pcol s c)

/-- A hop between two neighbours of one die that can cross the seam: its physical hop crosses it (R118, R119). -/
def hopPad (s : State) (a b : Nat) : Nat :=
  let vertical := decide (a % 32 = b % 32)
  let allowance := if vertical then decide (a % 8 = 3)
    else decide (Nat.min (a % 8) (b % 8) = 2 ∨ Nat.min (a % 8) (b % 8) = 3)
  if allowance ∧ physEast s a = physEast s b then 6 else 0

/-- The pads of a cluster toward E, W, N and S; 0 across a die edge or off the grid (CLU page). The page's Reset column gives 0, and
R118 with its example gives 6 in an unrepaired row: the rule is followed (DESIGN CHOICE, entry 55). -/
def meshPad (s : State) (c d : Nat) : Nat :=
  let x := c % 32
  let y := c / 32
  match d with
  | 0 => if x % 8 < 7 then hopPad s c (c + 1) else 0
  | 1 => if 0 < x % 8 then hopPad s c (c - 1) else 0
  | 2 => if 0 < y % 8 then hopPad s c (c - 32) else 0
  | _ => if y % 8 < 7 then hopPad s c (c + 32) else 0

/-- The pad of a cluster's accesses to the slices of a half: an access budgeted with the stitch penalty that does not cross
the stitch (R118, R119). -/
def xbarPad (s : State) (c : Nat) (east : Bool) : Nat :=
  if c % 8 = 3 then (if physEast s c = east then 6 else 0) else 0

end Sys2Proof.Machine
end

