-- ==== Sys2Proof/Machine/Recovery.lean ====
section
/-! DEFINITION. Machine/Recovery.lean: cluster faults and spare takeover (R381–R386), the residue and parity faults that
escalate to them, unit hangs, and the conflict entries of the adaptive loops (R394). -/

namespace Sys2Proof.Machine

/-- The logical cluster at physical column `p` of a die row, none for the spare or a column out of service (R116). -/
def logicalAt (s : State) (d row p : Nat) : Option Nat :=
  let f := repEntry s d row
  let x := if 7 < f ∨ p < f then (if p < 8 then some p else none) else if p = f then none else some (p - 1)
  x.map fun x => ((d / 4) * 8 + row) * 32 + (d % 4) * 8 + x

/-- The instances with a cluster in a die row (R386). -/
def instsInRow (s : State) (d row : Nat) : List Nat :=
  instIds.filter fun h => (clustersOf (instAt s h)).any fun c => decide (dieOf c = d ∧ c / 32 % 8 = row)

/-- A cluster becomes unavailable (R15). -/
def makeUnavailable (s : State) (c : Option Nat) : State :=
  match c with
  | some c => touch (modCluster s c fun k => { k with avail := false }) (pgClu c 0)
  | none => s

/-- The entry of a cluster fault: REPLAY for the hedge that holds the cluster, ABSORB for a free or dormant one (R381), NOTE
for the spare. -/
def faultSev (s : State) (c : Option Nat) : Sev :=
  match c with
  | some c => if ownerOf s c ≠ 0 ∧ !(clusterAt s c).dormant then .replay else .absorb
  | none => .note

/-- The hedge whose tick a cluster fault discards. -/
def faultHedge (s : State) (c : Option Nat) : Nat :=
  match c with
  | some c => if (clusterAt s c).dormant then 0 else ownerOf s c
  | none => 0

/-- A fault detected before the mirror copy of the cluster's last committed tick is complete: KIND 5 (R275, R385). -/
def mirrorLoss (s : State) (c : Option Nat) : State :=
  match c with
  | some c =>
    let k := clusterAt s c
    if k.owner ≠ 0 ∧ k.carried.mirror.isSome ∧ !k.carried.mirrorDone then
      dataLoss s k.owner 5 (lossInCluster (instAt s k.owner) c 0)
    else s
  | none => s

/-- Every hedge with a cluster in the row goes HELD at the next boundary with cause 6 (R386). -/
def holdRow (s : State) (d row : Nat) : State := (instsInRow s d row).foldl (fun t h => holdAtBoundary t h 6) s

/-- A cluster fault is declared at physical column `p` (R381, R382, R386). `lost` are the uncorrectable lines of the failed
cluster's image (R385). A fault at the column already staged is no second one: its tick is discarded again (entry 32). -/
def declareFault (s : State) (d row p : Nat) (lost : List UeLoc) (injected : Bool) : State :=
  let key := d * 8 + row
  let c := logicalAt s d row p
  let h := faultHedge s c
  let detail := clusterDetail (c.getD 0) p
  let report (sev : Sev) (code : Nat) : Report :=
    { sev := sev, srcType := 0x40, srcInst := c.getD 0, code := code, inst := h, detail := detail, injected := injected }
  let staged := mget s.fabric.repPend 15 key
  if repEntry s d row = p then s
  else
  let s := recordColumn s d row p
  if repEntry s d row ≠ 15 then
    let s1 := logErr s (report .hold 0x3008)
    holdRow (mirrorLoss (replayFault (makeUnavailable s1 c) h) c) d row
  else if staged = p then replayFault (logErr s (report (faultSev s c) 0x3005)) h
  else if staged ≠ 15 then
    let s1 := logErr (logErr s (report .hold 0x3007)) (report .hold 0x3008)
    let s2 : State := { s1 with fabric := { s1.fabric with
      repPend := mset s1.fabric.repPend 15 key 15, copyDone := mset s1.fabric.copyDone false key false
      copyLate := mset s1.fabric.copyLate false key false } }
    holdRow (mirrorLoss (replayFault (makeUnavailable (makeUnavailable s2 c) (logicalAt s d row staged)) h) c) d row
  else
    let s1 := logErr s (report (faultSev s c) 0x3005)
    let s2 : State := { s1 with fabric := { s1.fabric with
      repPend := mset s1.fabric.repPend 15 key p
      copyDone := mset s1.fabric.copyDone false key (decide (p = 8)) } }
    let s3 := replayFault (touch (touch s2 (pgDie d 0)) (pgDie d 1)) h
    lost.foldl (fun t l => uncorrectable t l injected) (mirrorLoss s3 c)

/-- CLUSTER_FAULT (R381). -/
def execClusterFault (d : Die) (row : Fin 8) (p : Fin 9) (lost : List UeLoc) (s : State) : Result :=
  .next (declareFault s d.val row.val p.val lost false)

/-- A cluster fault of a logical cluster. -/
def clusterFaultAt (s : State) (c : Nat) (injected : Bool) : State :=
  declareFault s (dieOf c) (c / 32 % 8) (pcol s c) [] injected

/-- TAKEOVER_COPY_DONE (R384): done before COMMIT starts, the remap switches at the next boundary; done in COMMIT, one later. -/
def execTakeoverCopyDone (d : Die) (row : Fin 8) (s : State) : Result :=
  .next <|
    let key := d.val * 8 + row.val
    if mget s.fabric.repPend 15 key ≤ 7 ∧ !(mget s.fabric.copyDone false key) then
      if s.tck.phase = .commit then { s with fabric := { s.fabric with copyLate := mset s.fabric.copyLate false key true } }
      else { s with fabric := { s.fabric with copyDone := mset s.fabric.copyDone false key true } }
    else s

/-- What belongs to a physical cluster and not to the image that the shift path moves (R382): its noise sources, with the
blocks they leave substituted (R238), and its fault history (R381). -/
def moveHardware (k src : Cluster) : Cluster :=
  { k with
    residues := src.residues, sprigFaults := src.sprigFaults
    su := { k.su with
      noise := src.su.noise
      noiseSub := (List.range 64).foldl
        (fun a b => if (mget src.su.noise {} b).failed then a ||| (1 <<< b) else a) 0 } }

/-- The logical clusters of a die row from column `f` on now lie one physical column east; the last lies on the spare, whose
history is empty (R116, R382, entry 32). -/
def shiftHardware (s : State) (d row f : Nat) : State :=
  (List.range 8).foldl (fun t x =>
    let c := ((d / 4) * 8 + row) * 32 + (d % 4) * 8 + x
    if x < f then t
    else modCluster t c fun k => moveHardware k (if x < 7 then clusterAt s (c + 1) else {})) s

/-- At a boundary a staged entry whose copy was complete takes effect; the hedge of one that was not spends the next slot
without running (R117, R384, R393). -/
def switchRow (s : State) (key : Nat) : State :=
  let f := mget s.fabric.repPend 15 key
  let d := key / 8
  let row := key % 8
  if mget s.fabric.copyDone false key then
    let c := logicalAt s d row f
    let s1 : State := { s with fabric := { s.fabric with
      repMap := mset s.fabric.repMap 15 key f, repPend := mset s.fabric.repPend 15 key 15
      copyDone := mset s.fabric.copyDone false key false } }
    let s2 := bump (bump (shiftHardware s1 d row f) (pgDie d 0) 5) (pgDie d 1) 5
    if f = 8 then s2
    else logErr s2 { sev := .absorb, srcType := 0x40, srcInst := c.getD 0, code := 0x3006, inst := faultHedge s c,
                     detail := clusterDetail (c.getD 0) f }
  else
    let s1 : State := { s with fabric := { s.fabric with
      copyDone := mset s.fabric.copyDone false key (mget s.fabric.copyLate false key)
      copyLate := mset s.fabric.copyLate false key false } }
    let h := faultHedge s (logicalAt s d row f)
    if h = 0 then s1 else modInst s1 h fun i => { i with skip := true }

/-- Every staged repair at a boundary. -/
def switchRemaps (s : State) : State := (s.fabric.repPend.map (·.1)).foldl switchRow s

/-! ### Escalation (R381) -/

/-- The device ticks of the last 1,024 with a new one. -/
def recentTicks (s : State) (l : List Nat) : List Nat :=
  (l.filter fun t => decide (s.tck.devTick.toNat < t + 1024)) ++ [s.tck.devTick.toNat]

/-- A residue mismatch in ME lane `n` (0–15) or the SU array (16): the tick is discarded, and the third within 1,024 ticks
declares a cluster fault. -/
def residueFault (s : State) (c n : Nat) (injected : Bool) : State :=
  let h := ownerOf s c
  let l := recentTicks s (mget (clusterAt s c).residues [] n)
  let s1 := logErr (modCluster s c fun k => { k with residues := mset k.residues [] n l })
    { sev := if h = 0 then .absorb else .replay, srcType := if n = 16 then 0x43 else 0x41, srcInst := c,
      code := if n = 16 then 0x3002 else 0x3001, inst := h, detail := clusterDetail c (pcol s c), injected := injected }
  let s2 := replayFault s1 h
  if 3 ≤ l.length then clusterFaultAt s2 c injected else s2

/-- A memory or register-parity fault on a sprig (R381). -/
def sprigFault (s : State) (c p code : Nat) (injected : Bool) : State :=
  let h := ownerOf s c
  let l := recentTicks s (mget (clusterAt s c).sprigFaults [] p)
  let s1 := logErr (modCluster s c fun k => { k with sprigFaults := mset k.sprigFaults [] p l })
    { sev := if h = 0 then .absorb else .replay, srcType := 0x42, srcInst := c, code := code, inst := h,
      detail := clusterDetail c (pcol s c), injected := injected }
  let s2 := replayFault s1 h
  if 3 ≤ l.length then clusterFaultAt s2 c injected else s2

/-! ### Patrol (R280) -/

/-- An uncorrectable error that patrol finds: one in a sprig's memory is a memory fault on that sprig (R381), any other is
handled by its location (R285). -/
def patrolFault (s : State) (l : UeLoc) : State :=
  match l with
  | .sprigMem c p => sprigFault s c.val p.val 0x1002 false
  | _ => uncorrectable s l false

/-- Lines of a stack's frames, of its die's slices, and of a cluster's SRAM, in the order in which patrol walks them (R280). The size
of a cluster's SRAM is taken as that of its store (entry 57). -/
def patrolFrames : Nat := 22888 * 32768
def patrolSlices : Nat := 32 * 32768
def patrolSram : Nat := 16384
def patrolTotal : Nat := patrolFrames + patrolSlices + 64 * patrolSram

/-- The number of a cluster on its die, row by row. -/
def clusterOnDie (c : Nat) : Nat := c / 32 % 8 * 8 + c % 8

/-- The lines of the walk on die `d` at which a location stands: none on another die, nor for the maps and tables. -/
def patrolPlace (s : State) (d : Nat) : UeLoc → Option (Nat × Nat)
  | .line dpa =>
    let n := if isHbm dpa then dpa % 0x10_0000_0000 / 64
      else patrolFrames + sliceIndexOf dpa % 32 * 32768 + (dpa - 0x0080_0000_0000) % unit2M / 64
    if dpaDie dpa = d then some (n, n + 1) else none
  | .mirror c => (clusterAt s c.val).carried.mirror.bind fun m =>
      let n := patrolFrames + sliceIndexOf m % 32 * 32768 + (m - 0x0080_0000_0000) % unit2M / 64
      if dpaDie m = d then some (n, n + 1024) else none
  | .carriedWorking c l | .plainStore c l => here c l.val 1
  | .carriedCommitted c | .carriedBoth c | .coupling c | .sparse c | .suState c => here c 0 patrolSram
  | .sprigMem c _ => here c 0 patrolSram
  | _ => none
where
  /-- `n` lines of a cluster's SRAM from line `l` on. -/
  here (c : Cl) (l n : Nat) : Option (Nat × Nat) :=
    let a := patrolFrames + patrolSlices + clusterOnDie c.val * patrolSram + l
    if dieOf c.val = d then some (a, a + n) else none

/-- The SRAMs of cluster `n` of a die, row × 8 + column, are being copied for a takeover (R382, R383). -/
def copiedSram (s : State) (d n : Nat) : Bool :=
  let f := mget s.fabric.repPend 15 (d * 8 + n / 8)
  decide (f ≤ 7 ∧ f ≤ n % 8)

/-- How far a step of patrol from line `pos` gets that would get to `upto`: SRAMs that are being copied make it yield (R383). -/
def patrolUpto (s : State) (d pos upto : Nat) : Nat :=
  (List.range 64).foldl (fun m n =>
    let a := patrolFrames + patrolSlices + n * patrolSram
    if copiedSram s d n ∧ pos < a + patrolSram then Nat.min m (Nat.max pos a) else m) upto

/-- A step of patrol on stack `d` in COPPICE (R55, R280): lines read in the order of the walk, and the errors found among them with
whether each is uncorrectable. The pass ends with the last line. Migration on the stack goes first (R283). -/
def execPatrolScrubStep (d : Die) (lines : Nat) (errs : List (UeLoc × Bool)) (s : State) : Result :=
  .next <|
    let k := stackAt s d.val
    if s.tck.phase ≠ .coppice ∨ k.migrating.isSome ∨ 400 * 128 / 8 < lines then s
    else
      let upto := patrolUpto s d.val k.scrubPos (Nat.min (k.scrubPos + lines) patrolTotal)
      let found := errs.filter fun e => (patrolPlace s d.val e.1).any fun p => decide (p.1 < upto ∧ k.scrubPos < p.2)
      let s1 := found.foldl (fun t e => if e.2 then patrolFault t e.1
        else bump (correctable t e.1 false) (pgDie d.val 2) 3) s
      let done := decide (upto = patrolTotal)
      let s2 := modStack s1 d.val fun k => { k with
        scrubPos := if done then 0 else upto
        scrubPass := if done then k.scrubPass + 1 else k.scrubPass }
      modTck (bumpBy s2 (pgDie d.val 2) 2 (upto - k.scrubPos)) fun t => { t with
        bgScrub := if done then t.bgScrub &&& ~~~((1 : BitVec 8) <<< d.val) else t.bgScrub ||| (1 <<< d.val) }

/-! ### Unit hangs -/

/-- A unit has a command that has not completed. -/
def unitRuns (k : Cluster) (u : UnitKind) : Bool :=
  match u with
  | .me => k.me.run.isSome
  | .su => k.su.sweepRun.isSome || k.su.bndRun.isSome
  | .draw => k.drw.run.isSome

/-- The page type of a unit. -/
def unitPage (u : UnitKind) : Nat := match u with | .me => 0x41 | .su => 0x43 | .draw => 0x44

/-- A unit hang is logged and declares a cluster fault (R381). -/
def unitHang (s : State) (c : Nat) (u : UnitKind) (injected : Bool) : State :=
  let h := ownerOf s c
  clusterFaultAt (logErr s
    { sev := if h = 0 then .absorb else .replay, srcType := unitPage u, srcInst := c, code := 0x3004, inst := h,
      detail := clusterDetail c (pcol s c), injected := injected }) c injected

/-- UNIT_HANG: a command of the unit is 64 cycles past its fixed duration. -/
def execUnitHang (c : Cl) (u : UnitKind) (s : State) : Result :=
  .next (if unitRuns (clusterAt s c.val) u then unitHang s c.val u false else s)

/-! ### Loops (R394) -/

/-- Loop numbers of State.avsDev.lastConf: 0 bramble, 1 trim, 2 voltage, 3 grade, 4 equalisation. A conflict is logged at
most once per 1,024 device ticks. -/
def loopConflict (s : State) (loop srcType srcInst : Nat) : State :=
  let now := s.tck.devTick.toNat
  let due := match mget s.avsDev.lastConf none loop with
    | some t => decide (t + 1024 ≤ now)
    | none => true
  if due then
    logErr (modAvsDev s fun a => { a with lastConf := mset a.lastConf none loop (some now) })
      { sev := .note, srcType := srcType, srcInst := srcInst, code := 0x9001, inst := 0, detail := loop }
  else s

end Sys2Proof.Machine
end

