-- ==== Sys2Proof/Machine/Stochastic.lean ====
section
/-! DEFINITION. Machine/Stochastic.lean: the SU arrays (R187–R210): fields, updates and acceptance, block noise and its
substitution (R235–R239), the bramble loop (R220, R221), and the commands of the sweep and boundary engines. A command's
effect comes about when its engine dispatches it; its return word follows at completion. -/

namespace Sys2Proof.Machine

/-! ### Modes and values (R187, R190) -/

def activeBlocks (mode : Nat) : Nat := match mode with | 2 => 32 | 3 => 16 | _ => 64

/-- SU cycles per update, r. -/
def suR (mode : Nat) : Nat := match mode with | 2 => 2 | 3 => 4 | _ => 1

/-- Coefficient size S in bytes (R193); FP32 when staged in scaled mode (R192). -/
def coefSize (mode : Nat) : Nat := match mode with | 2 => 4 | 3 => 8 | _ => 2

/-- A unit's value: ±1, or 0/1 in a block of that encoding (R187). -/
def unitValue (enc01 : Bool) (b : Bool) : Int := if enc01 then (if b then 1 else 0) else (if b then 1 else -1)

def blockOf (u : Su) (sheet b : Nat) : SuBlock := mget u.blocks {} (sheet * 64 + b)

def setBlock (u : Su) (sheet b : Nat) (x : SuBlock) : Su := { u with blocks := mset u.blocks {} (sheet * 64 + b) x }

/-- v_i of unit `i` of a block. -/
def vOf (u : Su) (b : Nat) (x : SuBlock) (i : Nat) : Int := unitValue (u.enc.getLsbD b) (x.states.getLsbD i)

/-- J_ik of a block's dense matrix. -/
def denseJ (u : Su) (b i k : Nat) : Int := mget u.dense 0 (b * 4096 + i * 64 + k)

/-- A ghost slot's value under a bit. -/
def ghostValue (u : Su) (slot : Nat) (b : Bool) : Int := unitValue (mget u.ghostEnc false slot) b

/-- APPLIED of the resident sheet (R206). -/
def appliedBit (u : Su) (slot : Nat) : Bool := mget u.applied false (u.resident * 16384 + slot)

/-- The bit of a ghost slot that sparse entry `n` has put into its field: APPLIED, or what an APPLY in progress latched once it has
passed the entry (R206). -/
def ghostSeen (u : Su) (n slot : Nat) : Bool :=
  match u.bndRun with
  | some r => if bits r.cmd.w0.toNat 3 0 = 2 ∧ n < 4 * r.pos then mget r.latched false slot else appliedBit u slot
  | none => appliedBit u slot

/-- The local fields of a block as R189 defines them. -/
def rebuiltFields (u : Su) (b : Nat) : FMap Int :=
  let x := blockOf u u.resident b
  let dense (i : Nat) : Int := ((List.range 64).map fun k => if k = i then 0 else denseJ u b k i * vOf u b x k).sum
  let f := (List.range 64).foldl (fun m i => mset m 0 i (mget x.bias 0 i + dense i)) ([] : FMap Int)
  (List.range u.spcnt).foldl (fun m n =>
    let e := mget u.sparse {} n
    if e.target / 64 = b then mset m 0 (e.target % 64) (mget m 0 (e.target % 64) + e.j * ghostValue u e.ghost (ghostSeen u n e.ghost))
    else m) f

/-- Rebuild the fields of some blocks of the resident sheet (REBUILD, LOAD TARGET 4). -/
def rebuild (u : Su) (bs : List Nat) : Su :=
  bs.foldl (fun u b => setBlock u u.resident b { blockOf u u.resident b with fields := rebuiltFields u b }) u

/-! ### Acceptance (R201, R202) -/

/-- A fixed-point number rounded to 19 fraction bits, to nearest even. -/
def to19 (x : Int) : Int := sgn (decide (x < 0)) (roundAt .rne x.natAbs (-160) (-19))

/-- The entries M(0) and K(0). -/
def acceptCap : Int := 0x58B90C

/-- M(u) = −ln((u + 0.5) / 65,536) in units of 2^−19. -/
def metropolisEntry (u : Nat) : Int := if u = 0 then acceptCap else to19 (-(lnFx (2 * u + 1) (-17)))

/-- K(u) = ln(65,536 / u − 1) in units of 2^−19. -/
def glauberEntry (u : Nat) : Int := if u = 0 then acceptCap else to19 (lnFx (65536 - u) 0 - lnFx u 0)

/-- x = ΔE × β × 2^X rounded once to FP32 (R201). -/
def acceptX (dE : Int) (beta : Fl) (x : Int) : Fl := rnd32 (flMul (ofInt dE x) beta).1

/-- The acceptance rule (R202, R220); where x is no number (ΔE = 0 at an infinite β) the spec states no result and the
decision is free. -/
def accepts (glauber : Bool) (x : Fl) (u : Nat) : Bool :=
  if isNan x then Config.unstated 3 u 0 == 0
  else if glauber then flLt x (ofInt (glauberEntry u) (-19))
  else flLe x (.fin false 0 0) || flLt x (ofInt (metropolisEntry u) (-19))

/-- ΔE of flipping a unit (R189). -/
def deltaE (enc01 : Bool) (v f : Int) : Int := if enc01 then (2 * v - 1) * f else 2 * v * f

/-! ### Block noise (R235–R238) -/

/-- 16 bits in reverse order. -/
def reverse16 (v : BitVec 16) : BitVec 16 :=
  (List.range 16).foldl (fun a i => if v.getLsbD i then a ||| (1 <<< (15 - i)) else a) 0

/-- The number of SU cycle `t` of the WORK phase in progress among all that the sources have run, so that no two are the same (R2);
the cycles before a phase have numbers of their own (R238). -/
def noiseTime (s : State) (t : Nat) : Nat := s.epoch * 2 ^ 40 + 2 ^ 39 + t

/-- The u that an update of block `b` takes in SU cycle `t` of cluster `c`: its own source's, or its pair's from 17 cycles
earlier with its bits reversed (R238). -/
def noiseValue (c b t : Nat) (n : Noise) : BitVec 16 :=
  if n.failed then reverse16 (Config.blockNoise c (Nat.xor b 1) (t - 17)) else Config.blockNoise c b t

/-- The repetition test: the source after delivering `u`, and whether it fails on the sixth identical value (R237). -/
def noiseDeliver (n : Noise) (u : BitVec 16) : Noise × Bool :=
  let r := if 0 < n.reps ∧ n.last = u then n.reps + 1 else 1
  ({ n with last := u, reps := r }, !n.failed && decide (6 ≤ r))

/-- A source fails: its block is substituted from the next update on, unless its pair already is (R238, R239). -/
def failSource (u : Su) (b : Nat) : Su :=
  if (mget u.noise {} (Nat.xor b 1)).failed then u
  else { u with
    noise := mmod u.noise {} b (fun n => { n with failed := true })
    noiseSub := u.noiseSub ||| (1 <<< b), flags := u.flags ||| 4 }

/-! ### Sweeps (R198–R200, R220, R221) -/

/-- What a sweep reads from the hedge: the scheduled temperature, the active parameters, and the rule. -/
structure SweepEnv where
  cluster : Nat
  tsched : Fl
  par : AnnPar
  glauber : Bool

/-- The unit that update `p` of a block visits (R198). -/
def unitAt (u : Su) (b p : Nat) (x : SuBlock) : Nat := if u.ordered.getLsbD b then x.order.getD p p else p

/-- Flip unit `j` of a block: every other field of the block follows (R199). -/
def flipUnit (u : Su) (b j : Nat) (x : SuBlock) : SuBlock :=
  let enc01 := u.enc.getLsbD b
  let new := !x.states.getLsbD j
  let d : Int := if enc01 then (if new then 1 else -1) else 2 * unitValue false new
  { x with
    states := x.states ^^^ (1 <<< j)
    fields := (List.range 64).foldl (fun m k =>
      if k = j then m else mset m 0 k (mget m 0 k + d * denseJ u b j k)) x.fields }

/-- The array and its sweep in progress as updates change them, with the sources that failed. -/
structure SweepOut where
  su : Su
  run : SuRun
  failed : List Nat

/-- Site update `p` of block `b` in the SU cycle numbered `t` (R198–R202). -/
def siteUpdate (e : SweepEnv) (t b p : Nat) (o : SweepOut) : SweepOut :=
  let u := o.su
  let x := blockOf u u.resident b
  let j := unitAt u b p x
  let n := mget u.noise {} b
  let v := noiseValue e.cluster b t n
  let d := noiseDeliver n v
  let u1 : Su := { u with noise := mset u.noise {} b d.1, updates := u.updates + 1 }
  let u2 := if d.2 then failSource u1 b else u1
  let xe := mget u.xexp 0 b
  let dE := deltaE (u.enc.getLsbD b) (vOf u b x j) (mget x.fields 0 j)
  let beta := f32 (mget o.run.beta 0 b)
  let ok := !x.clamps.getLsbD j && accepts e.glauber (acceptX dE beta (if u.mode = 0 then xe else 0)) v.toNat
  { su := if ok then { setBlock u2 u.resident b (flipUnit u b j x) with
                        flips := u2.flips + 1, ckptFlips := u2.ckptFlips + 1 } else u2
    run := if ok then { o.run with value := o.run.value + 1, acc := mmod o.run.acc 0 b (· + 1) } else o.run
    failed := if d.2 then o.failed ++ [b] else o.failed }

/-- T clamped to [T_MIN, T_MAX], and whether it was (R220). -/
def clampT (par : AnnPar) (t : Fl) : Fl × Bool :=
  if flLt t (f32 par.tmin) then (f32 par.tmin, true)
  else if flLt (f32 par.tmax) t then (f32 par.tmax, true) else (t, false)

/-- β of a block at the start of a sweep, and whether T was clamped (R220). -/
def blockBeta (e : SweepEnv) (a : BlkAnn) : Fl × Bool :=
  let t := clampT e.par (rnd32 (flAdd e.tsched (f32 a.bramble)).1)
  (rnd32 (flDiv (.fin false 1 0) t.1).1, t.2)

/-- The bramble loop at the end of a sweep (R221), and whether the ceiling stopped it. -/
def brambleStep (par : AnnPar) (a : BlkAnn) (acc : Nat) : BlkAnn × Bool :=
  let a1 : BlkAnn := { a with acc := a.acc + acc, sw := a.sw + 1 }
  if a1.sw = par.wm1 + 1 then
    if a1.acc < par.amin then
      let want := rnd32 (flAdd (f32 a.bramble) (f32 par.step)).1
      if flLt (f32 par.ceil) want then ({ bramble := par.ceil, acc := 0, sw := 0 }, true)
      else ({ bramble := to32 want, acc := 0, sw := 0 }, false)
    else ({ a1 with acc := 0, sw := 0 }, false)
  else (a1, false)

/-- The entry of the schedule that a hedge tick uses (R218). -/
def schedIndex (a : Anneal) (n : Nat) : Nat :=
  if n < a.base.toNat then 0
  else let d := n - a.base.toNat
       if a.wrap then d % 256 else Nat.min d 255

/-- The scheduled temperature of a hedge tick (R218); an entry reads 1.0 until written. -/
def tsched (i : Inst) : Fl := f32 (mget i.ann.par.sched 0x3F800000 (schedIndex i.ann i.htick.toNat))

/-! ### Commands (R196, R197) -/

/-- An SU command's fields. -/
structure SuCmd where
  op : Nat
  dep : Bool
  f3 : Nat
  a : Nat
  b : Nat
  addr : Nat
  lid : Nat
  hi : Nat
  deriving DecidableEq, Repr

def suCmd (u : UCmd) : SuCmd :=
  { op := bits u.w0.toNat 3 0, dep := bit u.w0.toNat 4, f3 := bits u.w0.toNat 7 5, a := bits u.w0.toNat 19 8,
    b := bits u.w0.toNat 31 20, addr := bits u.w1.toNat 13 0, lid := bits u.w1.toNat 22 14, hi := bits u.w1.toNat 31 23 }

/-- The boundary engine's commands: APPLY, EXPORT, READ (R196). -/
def isBoundary (op : Nat) : Bool := op == 2 || op == 3 || op == 6

/-- Bytes of one unit of START and COUNT (entry 21: the spec gives the staging layouts no bytes). -/
def unitBytes (mode target : Nat) : Nat :=
  match target with
  | 0 => 4160 * (if mode = 0 then 4 else coefSize mode)
  | 1 => 512 | 2 => 64 | 3 => 8 | 4 => 8
  | 5 => 64 * (match mode with | 2 => 8 | 3 => 16 | _ => 4)
  | _ => 8

/-- REBUILD's figure (R197). -/
def rebuildCycles (u : Su) : Nat := 8 + 2 * (64 * suR u.mode.toNat + (u.spcnt + 3) / 4)

/-- The path latency of SWAP's first read (R208, R260). -/
def swapLatency (s : State) (c : Nat) (va : Nat) : Nat :=
  let k := clusterAt s c
  match planReadPhys (instAt s k.owner) va with
  | some a => if isHbm a then nsToCycles 80 s.avsDev.grade + 24 + (if c % 8 = 3 then 6 else 0)
      else 20 + stitchPenalty c a
  | none => 20 + (if c % 8 = 3 then 6 else 0)

/-- The fixed duration of a command (R197). -/
def suDuration (s : State) (c : Nat) (u : Su) (m : SuCmd) : Nat :=
  match m.op with
  | 1 => 8 + 128 * suR u.mode.toNat * (m.a + 1)
  | 2 => 8 + 2 * ((u.spcnt + 3) / 4)
  | 3 => 9 + (m.b + 8) / 8
  | 4 => 8 + (unitBytes u.mode.toNat m.f3 * (m.b + 1) + 63) / 64 + (if m.f3 = 4 then rebuildCycles u - 8 else 0)
  | 5 => rebuildCycles u
  | 6 => 8 + (unitBytes u.mode.toNat m.f3 * (m.b + 1) + 63) / 64
  | 7 => 8 + 10240 + swapLatency s c (mget u.sheetVa 0 (m.f3 % 4)).toNat
  | _ => 8

/-- The WORK cycle in which the command at the head dispatches: its engine free, every earlier command dispatched, and with
DEP every earlier one complete (R196). -/
def suDispatchAt (u : Su) (cmd : UCmd) (m : SuCmd) : Nat :=
  let t := Nat.max cmd.at_ u.lastDisp
  if m.dep then Nat.max t (Nat.max u.sweepFree u.bndFree)
  else Nat.max t (if isBoundary m.op then u.bndFree else u.sweepFree)

/-- The command's span meets the 64 cycles after a checkpoint of the plan (R213). -/
def inCkptWindow (i : Inst) (t dur : Nat) : Bool :=
  match i.plan with
  | some l => l.plan.checkpoints.any fun p => decide (p.1 < t + dur ∧ t < p.1 + 64)
  | none => false

/-- Fields that the command table gives as 0, and units beyond the active ones, make a command ILLEGAL (R196, entry 21). -/
def suFieldsBad (u : Su) (m : SuCmd) : Bool :=
  let n := activeBlocks u.mode.toNat
  m.hi != 0 ||
  match m.op with
  | 0 => false
  | 1 => decide (1 < m.f3) || m.b != 0 || m.addr != 0 || m.lid != 0
  | 2 => m.f3 != 0 || m.a != 0 || m.b != 0 || m.addr != 0 || m.lid != 0
  | 3 => m.f3 != 0 || decide (n < m.a + m.b + 1) || decide (16384 < m.addr + 64 * (m.b + 1))
  | 4 => m.lid != 0 || decide (4 < m.f3) || decide ((if m.f3 = 1 then 256 else n) < m.a + m.b + 1)
  | 5 => m.f3 != 0 || m.a != 0 || m.b != 0 || m.addr != 0 || m.lid != 0
  | 6 => m.lid != 0 || m.f3 == 0 || m.f3 == 7 ||
      decide ((if m.f3 = 1 ∨ m.f3 = 6 then 256 else n) < m.a + m.b + 1)
  | 7 => decide (4 ≤ m.f3) || decide (sheetCount u ≤ m.f3) || m.a != 0 || m.b != 0 || m.addr != 0 || m.lid != 0
  | _ => true

/-- The command at the head of the array's queue, when its engine is free and, with DEP, both are (R196). -/
def suHead (s : State) (k : Cluster) (op : Nat) : Option UCmd :=
  if clusterRuns s k then
    match k.su.queue with
    | u :: _ =>
      let m := suCmd u
      let idle := if m.dep then k.su.sweepRun.isNone && k.su.bndRun.isNone
        else if isBoundary m.op then k.su.bndRun.isNone else k.su.sweepRun.isNone
      if (if op < 8 then m.op = op else 8 ≤ m.op) ∧ idle then some u else none
    | [] => none
  else none

/-- The engine's run of a command (R197). -/
def suStart (s : State) (c : Nat) (u : UCmd) (status tag : Nat) (ok : Bool) : State :=
  modCluster s c fun k =>
    let m := suCmd u
    let t := suDispatchAt k.su u m
    let dur := suDuration s c k.su m
    let run : SuRun := { cmd := u, status := status, value := 0, tag := tag, start := t, done := t + dur, pos := 0, beta := [],
                         acc := [], latched := if m.op = 2 then k.su.received else [] }
    let su : Su := { k.su with queue := k.su.queue.tail, lastDisp := t }
    let su := if isBoundary m.op then
        { su with bndRun := some run, bndFree := t + dur, busyB := su.busyB + (if ok then dur else 0),
                  stall := su.stall + (if ok then 0 else dur) }
      else { su with sweepRun := some run, sweepFree := t + dur, busyS := su.busyS + (if ok then dur else 0),
                     stall := su.stall + (if ok then 0 else dur) }
    { k with su := if ok then su else { su with flags := su.flags ||| 2 }
             illegal := if ok then k.illegal else k.illegal.or (some (0x43, 0x048)) }

/-- The command is not executed: ILLEGAL, its planned cycles counted as stalls (R195, R213). -/
def suIllegal (s : State) (c : Nat) (u : UCmd) : State := suStart s c u 1 0 false

/-- A block noise source has failed: NOTE, substitution; or a cluster fault when its pair is already involved
(R238, R239). -/
def noiseFailure (s : State) (c b : Nat) (subst : Bool) : State :=
  let s1 := bump s 4 5
  if subst then
    modEnt (logErr s1 { sev := .note, srcType := 0x43, srcInst := c, code := 0x6001, inst := ownerOf s c,
                        detail := clusterDetail c (pcol s c) + b * 2 ^ 20 }) fun e => { e with noiseSub := e.noiseSub + 1 }
  else clusterFaultAt s1 c false

/-! ### The engines in time (R199, R205, R206)

An SU cycle is two FCLK cycles. Within one, an EXPORT reads first, then an update reads its field, and what updates and APPLY add
lands at the end. The eight cycles of a command beside its steps come first (DESIGN CHOICE, entry 44). -/

/-- Change the run of an engine. -/
def modRun (s : State) (c : Nat) (boundary : Bool) (f : SuRun → SuRun) : State :=
  modCluster s c fun k => { k with su :=
    if boundary then { k.su with bndRun := k.su.bndRun.map f } else { k.su with sweepRun := k.su.sweepRun.map f } }

/-- A SWEEP in progress reaches a new sweep: every block's β, and the clamped temperatures (R198, R220). -/
def sweepBegins (s : State) (c : Nat) (e : SweepEnv) : State :=
  let k := clusterAt s c
  let betas := (List.range (activeBlocks k.su.mode.toNat)).map fun b => (b, blockBeta e (mget k.su.ann {} b))
  modInst (modRun s c false fun r => { r with
      beta := betas.foldl (fun m x => mset m 0 x.1 (to32 x.2.1)) [], acc := [] }) k.owner
    fun i => { i with ann := { i.ann with tClamp := i.ann.tClamp + BitVec.ofNat 32 (betas.filter fun x => x.2.2).length } }

/-- Every block's bramble returns to FLOOR and its windows to 0 (R223, R224). -/
def resetBramble (u : Su) (floor : Word) : Su :=
  { u with brReset := false, ann := (List.range 64).foldl (fun m b => mset m {} b { bramble := floor, acc := 0, sw := 0 }) [] }

/-- A new best resets the brambles for every sweep that starts from here on: at the end of one in progress (R223). -/
def bestReset (u : Su) (floor : Word) : Su :=
  match u.sweepRun with
  | some r => if (suCmd r.cmd).op = 1 ∧ r.status = 0 ∧ r.pos % (64 * suR u.mode.toNat) ≠ 0 then { u with brReset := true }
      else resetBramble u floor
  | none => resetBramble u floor

/-- The end of a sweep: each block's bramble loop (R221, R226), and the reset that a new best has called for (R223). -/
def sweepEnds (s : State) (c : Nat) (e : SweepEnv) (r : SuRun) : State :=
  let k := clusterAt s c
  let steps := (List.range (activeBlocks k.su.mode.toNat)).map fun b =>
    (b, brambleStep e.par (mget k.su.ann {} b) (mget r.acc 0 b))
  let conf := (steps.filter fun x => x.2.2).length
  let s1 := modCluster s c fun k =>
    let u : Su := { k.su with ann := steps.foldl (fun m x => mset m {} x.1 x.2.1) k.su.ann, sweeps := k.su.sweeps + 1 }
    { k with su := if u.brReset then resetBramble u e.par.floor else u }
  let s2 := modInst s1 k.owner fun i => { i with ann := { i.ann with
    brConf := i.ann.brConf + BitVec.ofNat 32 conf, envelope := i.ann.envelope || decide (0 < conf) } }
  if 0 < conf then loopConflict s2 0 0x43 (leadOf (instAt s k.owner)) else s2

/-- One SU cycle of a SWEEP: all active blocks step together, one update every r cycles (R198). -/
def sweepStep (s : State) (c : Nat) (r : SuRun) : State :=
  let k := clusterAt s c
  let i := instAt s k.owner
  let e : SweepEnv := { cluster := c, tsched := tsched i, par := i.ann.par, glauber := (suCmd r.cmd).f3 == 1 }
  let n := suR k.su.mode.toNat
  let q := r.pos / n
  let t := noiseTime s ((r.start + 8) / 2 + r.pos)
  let s1 := if r.pos % n = 0 ∧ q % 64 = 0 then sweepBegins s c e else s
  let s2 := if r.pos % n = 0 then
      let u := (clusterAt s1 c).su
      let o := (List.range (activeBlocks u.mode.toNat)).foldl (fun o b => siteUpdate e t b (q % 64) o)
        { su := u, run := u.sweepRun.getD r, failed := [] }
      o.failed.foldl (fun s b => noiseFailure s c b (mget o.su.noise {} b).failed)
        (modCluster s1 c fun k => { k with su := { o.su with sweepRun := some o.run } })
    else s1
  let s3 := modRun s2 c false fun r => { r with pos := r.pos + 1 }
  if r.pos % n = n - 1 ∧ q % 64 = 63 then sweepEnds s3 c e (((clusterAt s3 c).su.sweepRun).getD r) else s3

/-- SU cycles of an APPLY: four entries each (R206). -/
def applySteps (u : Su) : Nat := (u.spcnt + 3) / 4

/-- At its end APPLIED takes what an APPLY latched, for the resident sheet (R206). -/
def applyEnds (u : Su) (r : SuRun) : Su :=
  { u with applied := (List.range 16384).foldl (fun m g =>
      mset m false (u.resident * 16384 + g) (mget r.latched false g)) u.applied }

/-- One SU cycle of an APPLY: each of its four entries adds J × (latched value − APPLIED value). -/
def applyStep (u : Su) (r : SuRun) : Su :=
  let u1 := ((List.range 4).filter fun j => decide (4 * r.pos + j < u.spcnt)).foldl (fun (w : Su) j =>
    let e := mget u.sparse {} (4 * r.pos + j)
    let d := e.j * (ghostValue u e.ghost (mget r.latched false e.ghost) - ghostValue u e.ghost (appliedBit u e.ghost))
    let x := blockOf w u.resident (e.target / 64)
    setBlock w u.resident (e.target / 64)
      { x with fields := mset x.fields 0 (e.target % 64) (mget x.fields 0 (e.target % 64) + d) }) u
  let r1 : SuRun := { r with pos := r.pos + 1 }
  let u2 : Su := { u1 with bndRun := some r1 }
  if r1.pos = applySteps u then applyEnds u2 r1 else u2

/-- An EXPORT reads one block: ghost slot, value bit and encoding of each unit (R205). -/
def exportStep (s : State) (c : Nat) (r : SuRun) : State :=
  let u := (clusterAt s c).su
  let m := suCmd r.cmd
  let b := m.a + r.pos
  let x := blockOf u u.resident b
  let l := (List.range 64).map fun i => (m.addr + 64 * r.pos + i, x.states.getLsbD i, u.enc.getLsbD b)
  modOp (modRun s c true fun r => { r with pos := r.pos + 1 }) c r.tag fun o => { o with bits := o.bits ++ l }

/-- The SU cycle in which the sweep engine steps next. -/
def sweepNext (u : Su) : Option (Nat × SuRun) :=
  u.sweepRun.bind fun r =>
    let m := suCmd r.cmd
    if m.op = 1 ∧ r.status = 0 ∧ r.pos < 64 * suR u.mode.toNat * (m.a + 1) then some ((r.start + 8) / 2 + r.pos, r) else none

/-- The SU cycle in which the boundary engine steps next. An EXPORT reads the eight blocks of a data flit in the SU cycle in which
the flit is injected (DESIGN CHOICE, entry 44). -/
def bndNext (u : Su) : Option (Nat × SuRun) :=
  u.bndRun.bind fun r =>
    let m := suCmd r.cmd
    if r.status ≠ 0 then none
    else if m.op = 2 ∧ r.pos < applySteps u then some ((r.start + 8) / 2 + r.pos, r)
    else if m.op = 3 ∧ r.pos ≤ m.b then some ((r.start + 9 + r.pos / 8) / 2, r)
    else none

/-- The most steps that one command advances the engines. -/
def suFuel : Nat := 0x400000

/-- Both engines run every step that begins before WORK cycle `t`, in the order of the SU cycles. -/
def suAdvance (c t : Nat) : Nat → State → State
  | 0, s => s
  | n + 1, s =>
    let u := (clusterAt s c).su
    let bnd (r : SuRun) : State :=
      if (suCmd r.cmd).op = 3 then exportStep s c r else modCluster s c fun k => { k with su := applyStep k.su r }
    match sweepNext u, bndNext u with
    | none, none => s
    | some (a, r), none => if 2 * a < t then suAdvance c t n (sweepStep s c r) else s
    | none, some (b, q) => if 2 * b < t then suAdvance c t n (bnd q) else s
    | some (a, r), some (b, q) =>
      if t ≤ 2 * Nat.min a b then s
      else if b < a ∨ (a = b ∧ (suCmd q.cmd).op = 3) then suAdvance c t n (bnd q)
      else suAdvance c t n (sweepStep s c r)

/-- Dispatch the head command of an operation in its cycle, the engines run up to it: ILLEGAL by its fields or a checkpoint window, or
its effect, which may find it ILLEGAL all the same. `act` answers the new state, the status and the tag it holds. -/
def suDispatch (s : State) (c op : Nat) (act : State → Cluster → SuCmd → Nat → Option (State × Nat × Nat)) : State :=
  match suHead s (clusterAt s c) op with
  | none => s
  | some u =>
    let m := suCmd u
    let t := suDispatchAt (clusterAt s c).su u m
    let s := suAdvance c t suFuel s
    let k := clusterAt s c
    if suFieldsBad k.su m || inCkptWindow (instAt s k.owner) t (suDuration s c k.su m) then suIllegal s c u
    else match act s k m t with
      | none => suIllegal s c u
      | some (s1, status, tag) => suStart s1 c u status tag true

/-- SWEEP (OP 1): its updates run in the SU cycles that follow (R198). -/
def execSweep (c : Cl) (s : State) : Result := .next (suDispatch s c.val 1 fun s _ _ _ => some (s, 0, 0))

/-- REBUILD (OP 5): the fields of the resident sheet (R189). -/
def execRebuild (c : Cl) (s : State) : Result :=
  .next (suDispatch s c.val 5 fun s _ _ _ =>
    some (modCluster s c.val fun k =>
      { k with su := rebuild k.su (List.range (activeBlocks k.su.mode.toNat)) }, 0, 0))

/-- APPLY (OP 2): at its start it latches every RECEIVED bit (R206); without sparse entries that is all it applies. -/
def execApply (c : Cl) (s : State) : Result :=
  .next <|
    let s1 := suDispatch s c.val 2 fun s _ _ _ => some (s, 0, 0)
    match (clusterAt s1 c.val).su.bndRun with
    | some r =>
      if (suHead s (clusterAt s c.val) 2).isSome ∧ r.status = 0 ∧ (clusterAt s1 c.val).su.spcnt = 0 then
        modCluster s1 c.val fun k => { k with su := applyEnds k.su r }
      else s1
    | none => s1

/-! ### EXPORT (R205) -/

/-- A flit addressed outside the hedge is dropped at the sending router: counted in HDG_WALLOUT, a REPLAY fault (R65). -/
def wallDrop (s : State) (c h n : Nat) : State :=
  replayFault (logErr (countWallOut s h n)
    { sev := .replay, srcType := 0x40, srcInst := c, code := 0x2008, inst := h, detail := clusterDetail c (pcol s c) }) h

/-- The head command waits another cycle for a tag of its engine (R136, R137). -/
def suTagWait (s : State) (c : Nat) (u : UCmd) : State :=
  modCluster s c fun k => { k with
    tagStall := k.tagStall + 1
    su := { k.su with stall := k.su.stall + 1, lastDisp := suDispatchAt k.su u (suCmd u) + 1 } }

/-- EXPORT (OP 3): one message on VC1, a header flit and ⌈c/8⌉ data flits, injected one per cycle from 8 cycles after dispatch on; it
takes a tag of the boundary engine, for which it waits (R136, R137, R197). -/
def execExportCmd (c : Cl) (s : State) : Result :=
  .next <|
    let k := clusterAt s c.val
    match suHead s k 3, freeTag k 65 with
    | some u, none => suTagWait s c.val u
    | _, tag =>
      suDispatch s c.val 3 fun s k m t =>
        let i := instAt s k.owner
        let n := 1 + (m.b + 8) / 8
        if i.w * i.h ≤ m.lid then some (wallDrop s c.val k.owner n, 0, 64)
        else
          let dst : Cl := ⟨globalId i m.lid % 512, Nat.mod_lt _ (by decide)⟩
          let tg := tag.getD 0
          let s1 := addOp s c.val { tag := tg, kind := .exportTo dst, w0 := 0, w1 := 0, w2 := 0, w3 := 0, notify := false,
                                    sprig := 0, ctx := 0, at_ := t, status := 0, served := false, left := n, done := t,
                                    data := [], bits := [], bad := [] }
          some (sendFlits s1 k.owner c.val 1 c tg false dst 1 n fun j => t + 8 + j, 0, tg)

/-- EXPORT_ARRIVAL: the last flit has arrived; the ghost slots take the values and their RECEIVED bits change; the tag returns. -/
def execExportArrival (c : Cl) (tag : Fin 64) (s : State) : Result :=
  .next <|
    let came (s : State) : Bool := (opAt (clusterAt s c.val) tag.val).any fun o => o.left == 0
    match opAt (clusterAt s c.val) tag.val with
    | some o =>
      match o.kind with
      | .exportTo dst =>
        if clusterRuns s (clusterAt s c.val) then
          let s1 := netUntil (ownerOf s c.val) came netFuel s
          match opAt (clusterAt s1 c.val) tag.val with
          | some o =>
            if o.left ≠ 0 then s1
            else
              let s2 := suAdvance c.val o.done suFuel s1
              let bits := ((opAt (clusterAt s2 c.val) tag.val).map (·.bits)).getD []
              dropOp (modCluster s2 dst.val fun y => { y with su := { y.su with
                received := bits.foldl (fun m b => mset m false b.1 b.2.1) y.su.received
                ghostEnc := bits.foldl (fun m b => mset m false b.1 b.2.2) y.su.ghostEnc } }) c.val tag.val
          | none => s1
        else s
      | _ => s
    | none => s

/-! ### LOAD, READ and SWAP (R192–R195, R208) -/

/-- The FP32 or integer values of a staged record. -/
def chunkWords (n : Nat) (bs : List Byte) : List Nat := (pieces n bs.length bs).map leNat
where pieces (n : Nat) : Nat → List Byte → List (List Byte)
  | 0, _ => []
  | f + 1, l => if l.isEmpty then [] else l.take n :: pieces n f (l.drop n)

/-- A finite value in units of 2^x, rounded to nearest even, and whether the rounding was inexact. -/
def inUnits (x : Int) : Fl → Int × Bool
  | .fin n m e =>
    let r := scaleTo m e x
    (sgn n (roundAt .rne m e x), r.2.1 != 0)
  | _ => (0, false)

/-- X_b of a block's values by steps 1 to 4 of R192; none when it exceeds 127. -/
def chooseX (l : List Fl) : Option Int :=
  let top := l.foldl (fun (m : Option Int) v => match v with
    | .fin _ n e => if n = 0 then m else some (max ((m.getD ((Nat.log2 n : Int) + e))) ((Nat.log2 n : Int) + e))
    | _ => m) none
  let x := match top with | some e => max (e - 14) (-128) | none => 0
  let x := if l.any (fun v => decide (32768 ≤ (inUnits x v).1.natAbs)) then x + 1 else x
  if 127 < x then none else some x

/-- Load one block's dense rows and biases (R192, R193); none when the load is ILLEGAL. -/
def loadDense (u : Su) (b : Nat) (ws : List Nat) : Option (Su × Bool) :=
  let size := if u.mode = 0 then 32 else 8 * coefSize u.mode.toNat
  let vals : Option (List Int × Int × Bool) :=
    if u.mode = 0 then
      let fl := ws.map (decodeFl fp32)
      if fl.any (fun v => match v with | .fin .. => false | _ => true) then none
      else (chooseX fl).map fun x => (fl.map (fun v => (inUnits x v).1), x, fl.any (fun v => (inUnits x v).2))
    else some (ws.map (toSigned size), 0, false)
  vals.map fun (l, x, loss) =>
    let d := (List.range 4096).foldl (fun m j => mset m 0 (b * 4096 + j) (l.getD j 0)) u.dense
    let bias := (List.range 64).foldl (fun m j => mset m 0 j (l.getD (4096 + j) 0)) ([] : FMap Int)
    (setBlock { u with dense := d, xexp := mset u.xexp 0 b x } u.resident b
      { blockOf u u.resident b with bias := bias }, loss)

/-- One staged sparse entry (R192, R194): its fields, and whether it loses bits; none when it is ILLEGAL. -/
def sparseEntry (u : Su) (lo hi : Nat) : Option (Sparse × Bool) :=
  let t := bits lo 27 16
  if activeBlocks u.mode.toNat * 64 ≤ t then none
  else if u.mode = 0 then
    match decodeFl fp32 hi with
    | .fin n m e =>
      let v := inUnits (mget u.xexp 0 (t / 64)) (.fin n m e)
      let sat := max (-32768) (min 32767 v.1)
      some ({ ghost := bits lo 13 0, target := t, j := sat }, v.2 || decide (sat ≠ v.1))
    | _ => none
  else
    let j := toSigned 32 hi
    if u.mode = 1 ∧ (j < -32768 ∨ 32767 < j) then none else some ({ ghost := bits lo 13 0, target := t, j := j }, false)

/-- More than 16 of the table's `n` entries name one target, whatever their J (R195). -/
def overTarget (m : FMap Sparse) (n : Nat) : Bool :=
  let l := (List.range n).map fun j => (mget m {} j).target
  l.any fun t => decide (16 < (l.filter (· == t)).length)

/-- Load sparse entries from index `first` up (R194, R195). -/
def loadSparse (u : Su) (first : Nat) (ws : List Nat) : Option (Su × Bool) :=
  let n := ws.length / 2
  let es := (List.range n).map fun j => sparseEntry u (ws.getD (2 * j) 0) (ws.getD (2 * j + 1) 0)
  if es.any Option.isNone then none
  else
    let es := es.filterMap (fun o => o)
    let m := ((List.range n).zip es).foldl (fun m p => mset m {} (first + p.1) p.2.1) u.sparse
    if overTarget m (Nat.max u.spcnt (first + n)) then none
    else some ({ u with sparse := m, spcnt := Nat.max u.spcnt (first + n) }, es.any (·.2))

/-- Load one block of TARGET 2, 3 or 4; an order that is no permutation is ILLEGAL. -/
def loadBlock (u : Su) (target b : Nat) (bs : List Byte) : Option Su :=
  let x := blockOf u u.resident b
  match target with
  | 2 =>
    let l := bs.map (·.toNat)
    if (List.range 64).all (fun v => l.contains v) then some (setBlock u u.resident b { x with order := l }) else none
  | 3 => some (setBlock u u.resident b { x with clamps := BitVec.ofNat 64 (leNat bs) })
  | _ => some (setBlock u u.resident b { x with states := BitVec.ofNat 64 (leNat bs) })

/-- What a LOAD makes of the array, and whether LOSS is set; none when it is ILLEGAL (R192, R195, R196). -/
def loadSu (k : Cluster) (store : Bytes) (m : SuCmd) : Option (Su × Bool) :=
  let u := k.su
  let size := unitBytes u.mode.toNat m.f3
  let data (j : Nat) : List Byte := wrapRead store (m.addr * 64 + j * size) size
  let js := List.range (m.b + 1)
  match m.f3 with
  | 0 => js.foldl (fun o j => o.bind fun w =>
      (loadDense w.1 (m.a + j) (chunkWords (if u.mode = 0 then 4 else coefSize u.mode.toNat) (data j))).map
        fun r => (r.1, w.2 || r.2)) (some (u, false))
  | 1 => loadSparse u (64 * m.a) (js.flatMap fun j => chunkWords 4 (data j))
  | t => (js.foldl (fun o j => o.bind fun w => loadBlock w t (m.a + j) (data j)) (some u)).map fun w =>
      (if t = 4 then rebuild w (js.map (· + m.a)) else w, false)

/-- Bytes that LOAD and READ move in the cluster store. -/
def suBytes (u : Su) (m : SuCmd) : Nat := unitBytes u.mode.toNat m.f3 * (m.b + 1)

/-- LOAD (OP 4): it reads the store while it runs. -/
def execLoad (c : Cl) (s : State) : Result :=
  .next (suDispatch s c.val 4 fun s k m t =>
    let seen := storeSeen k t (t + suDuration s c.val k.su m) s.fresh
    (loadSu k seen.1 m).map fun r =>
      (modCluster (reportPoison (burn s seen.2) c.val (m.addr * 64) (suBytes k.su m)) c.val fun k =>
         { k with su := if r.2 then { r.1 with flags := r.1.flags ||| 1 } else r.1 },
       if r.2 then 2 else 0, 0))

/-- The bytes that READ returns for one unit (R196, entry 21). -/
def readUnit (u : Su) (target n : Nat) : List Byte :=
  let x := blockOf u u.resident n
  match target with
  | 1 => (List.range 64).flatMap fun j =>
      let e := mget u.sparse {} (64 * n + j)
      leBytes 4 (e.ghost + e.target * 65536) ++ leBytes 4 (ofSigned 32 e.j)
  | 2 => (List.range 64).map fun p => BitVec.ofNat 8 (x.order.getD p p)
  | 3 => leBytes 8 x.clamps.toNat
  | 4 => leBytes 8 x.states.toNat
  | 5 =>
    let w := unitBytes u.mode.toNat 5 / 64
    (List.range 64).flatMap fun i => leBytes w (ofSigned (8 * w) (mget x.fields 0 i))
  | _ => leBytes 8 ((List.range 64).foldl (fun a i => a + (if mget u.received false (64 * n + i) then 2 ^ i else 0)) 0)

/-- READ (OP 6): the array as it stands at dispatch, written into the store by completion. -/
def execRead (c : Cl) (s : State) : Result :=
  .next (suDispatch s c.val 6 fun s k m t =>
    let bytes := (List.range (m.b + 1)).flatMap fun j => readUnit k.su m.f3 (m.a + j)
    some (modCluster s c.val fun k => landRange k t (t + suDuration s c.val k.su m) (m.addr * 64) bytes, 0, 0))

/-- The couplings of a sheet image: the dense store as R193 lays it out, then the sparse table of R194. -/
def swapSu (u : Su) (sheet : Nat) (image : Bytes) : Su :=
  let rd (off n : Nat) : Nat := readLe image off n
  let z := coefSize u.mode.toNat
  let nd := activeBlocks u.mode.toNat * 4096
  let dense := (List.range nd).foldl (fun m j => mset m 0 j (toSigned (8 * z) (rd (z * j) z))) ([] : FMap Int)
  let sparse := (List.range 16384).foldl (fun m j =>
    let lo := rd (0x80000 + 8 * j) 4
    let e : Sparse := { ghost := bits lo 13 0, target := bits lo 27 16, j := toSigned 32 (rd (0x80000 + 8 * j + 4) 4) }
    mset m {} j e) ([] : FMap Sparse)
  { u with resident := sheet, dense := dense, sparse := sparse
           spcnt := sparse.foldl (fun n p => if p.2.j = 0 then n else Nat.max n (p.1 + 1)) 0 }

/-- SWAP (OP 7): the named sheet's image is read line by line, under a tag of the sweep engine (R136, R137, R208). A line that the
cluster may not reach is refused: it reads zero, and the hedge is at fault (R16, R68, R263). -/
def execSuSwap (c : Cl) (s : State) : Result :=
  .next <|
    let k := clusterAt s c.val
    match suHead s k 7, freeTag k 64 with
    | some u, none => suTagWait s c.val u
    | _, tag =>
      suDispatch s c.val 7 fun s k m t =>
        let va := mget k.su.sheetVa 0 m.f3
        let l := sheetLines s (instAt s k.owner) (dieOf c.val) va.toNat
        let hbm := l.head?.any fun p => isHbm p.2
        let tg := tag.getD 0
        let s1 := startSheet s c.val k.owner
          { tag := tg, kind := .sheet hbm, w0 := va.extractLsb' 0 32, w1 := va.extractLsb' 32 32, w2 := 0, w3 := 0,
            notify := false, sprig := 0, ctx := 0, at_ := t + 8, status := 0, served := false,
            left := if hbm then 64 * l.length else l.length, done := t, data := [], bits := [], bad := [] } l
        if l.length = 10240 then some (s1, 0, tg)
        else some (replayFault (logErr (bump s1 (pgHbcI k.owner) 0)
          { sev := .replay, srcType := 0x32, srcInst := halfOf c.val, code := 0x2009, inst := k.owner,
            detail := va.toNat }) k.owner, 0, tg)

/-- A SWAP whose lines have all come: the couplings change, poisoned lines are reported, and the tag returns. -/
def swapEnds (s : State) (c : Nat) (r : SuRun) (o : Op) : State :=
  let h := ownerOf s c
  let image := o.data.foldl (fun m d => writeBytes m (64 * d.1) d.2) ([] : Bytes)
  let bad := (opLines s h c o).filter fun p => o.bad.contains p.1
  let s1 := dropOp (modCluster s c fun k => { k with su := swapSu k.su (suCmd r.cmd).f3 image }) c r.tag
  if bad.isEmpty then s1 else replayFault ((bad.map (·.2.1)).foldl badLine s1) h

/-- NOP (OP 0), and the OPs 8–15, which are ILLEGAL (R196). -/
def execSuNop (c : Cl) (s : State) : Result :=
  .next (match suHead s (clusterAt s c.val) 0 with
    | some _ => suDispatch s c.val 0 fun s _ _ _ => some (s, 0, 0)
    | none => suDispatch s c.val 8 fun _ _ _ _ => none)

/-- The word that a command returns (R197). -/
def suWord (r : SuRun) : Word := BitVec.ofNat 32 ((suCmd r.cmd).op + r.status * 16 + Nat.min r.value 0xFFFFFF * 256)

/-- The engine's command is late by `n` cycles, which count as stalls. -/
def suDelay (s : State) (c : Nat) (boundary : Bool) (n : Nat) : State :=
  modCluster (modRun s c boundary fun r => { r with done := r.done + n }) c fun k => { k with su :=
    if boundary then { k.su with bndFree := k.su.bndFree + n, stall := k.su.stall + n }
    else { k.su with sweepFree := k.su.sweepFree + n, stall := k.su.stall + n } }

/-- The command has done its work: its engine has run to its completion, and a SWAP has its lines. Answers whether it has. -/
def suFinish (s : State) (c : Nat) (r : SuRun) : State × Bool :=
  let s1 := suAdvance c r.done suFuel s
  if (suCmd r.cmd).op = 7 ∧ r.status = 0 then
    let whole (s : State) : Bool := (opAt (clusterAt s c) r.tag).any fun o => o.left == 0
    let s2 := netUntil (ownerOf s1 c) whole netFuel s1
    match opAt (clusterAt s2 c) r.tag with
    | some o => if o.left = 0 then (suDelay (swapEnds s2 c r o) c false (o.done - r.done), true) else (s2, false)
    | none => (s2, true)
  else (s1, true)

/-- SU_COMMAND_COMPLETE of one engine: its word returns to U; while U is full the engine stalls (R173, R197). -/
def execSuCommandComplete (c : Cl) (boundary : Bool) (s : State) : Result :=
  .next <|
    let run (s : State) : Option SuRun := let u := (clusterAt s c.val).su; if boundary then u.bndRun else u.sweepRun
    match run s with
    | some r0 =>
      if !(clusterRuns s (clusterAt s c.val)) then s
      else
        let f := suFinish s c.val r0
        let s1 := f.1
        match run s1 with
        | some r =>
          if !f.2 then s1
          else if uRoom (clusterAt s1 c.val) r.cmd.sprig.val r.cmd.ctx 1 then
            modCluster s1 c.val fun k =>
              deliverU { k with su := if boundary then { k.su with bndRun := none } else { k.su with sweepRun := none } }
                r.cmd.sprig.val r.cmd.ctx [suWord r] r.done
          else suDelay s1 c.val boundary 1
        | none => s1
    | none => s

/-! ### Noise trim (R236, R237) -/

/-- The trim code one step toward balance, held at the envelope; with whether the envelope blocked the move. Too many ones
lower the code (entry 21). -/
def trimMove (lo hi code : Int) (ones : List Nat) : Int × Bool :=
  let n := ones.sum
  if n = 16 * 2048 then (code, false)
  else
    let want := if 16 * 2048 < n then code - 1 else code + 1
    if want < lo ∨ hi < want then (max lo (min hi code), true) else (want, false)

/-- The tests that run in a trim pass: a constant bit position, or one beyond 1/2 ± 2^−8 with the code at the edge (R237). -/
def trimFails (lo hi code : Int) (ones : List Nat) : Bool :=
  ones.any (fun n => n == 0 || n == 4096) ||
    (decide (code = lo ∨ code = hi) && ones.any (fun n => decide (n + 16 < 2048 ∨ 2048 + 16 < n)))

/-- A source that the trim job has not passed yet in this pass: sources follow in the order of cluster and block (R56). -/
def trimDue (s : State) (c b : Nat) : Bool := decide (s.tck.trimPos ≤ c * 64 + b)

/-- The trim job after a source: it is unfinished while an available cluster or a block follows (R56; entry 58). -/
def trimAdvance (s : State) (c b : Nat) : State :=
  let more := decide (b < 63) || (List.range 512).any fun d => decide (c < d) && (clusterAt s d).avail
  modTck s fun k => { k with trimPos := if more then c * 64 + b + 1 else 0, bgTrim := more }

/-- NOISE_TRIM_PASS (R55, R56, R236): in COPPICE, over 4,096 calibration samples of a block's source, failed or not. -/
def execNoiseTrimPass (c : Cl) (b : Fin 64) (ones : List Nat) (s : State) : Result :=
  .next <|
    let n := mget (clusterAt s c.val).su.noise {} b.val
    if s.tck.phase ≠ .coppice ∨ !(trimDue s c.val b.val) then s
    else
      let m := trimMove s.ent.trimLo s.ent.trimHi n.trim ones
      let s1 := trimAdvance (modCluster s c.val fun k => { k with su := { k.su with
        noise := mset k.su.noise {} b.val { n with trim := m.1 } } }) c.val b.val
      let s2 := if m.2 then
          loopConflict (modEnt s1 fun e => { e with trimConf := e.trimConf + 1 }) 1 0x06 0
        else s1
      if trimFails s.ent.trimLo s.ent.trimHi m.1 ones && !n.failed then
        let sub := !(mget (clusterAt s2 c.val).su.noise {} (Nat.xor b.val 1)).failed
        noiseFailure (modCluster s2 c.val fun k => { k with su := failSource k.su b.val }) c.val b.val sub
      else s2

end Sys2Proof.Machine
end

