-- ==== Sys2Proof/Machine/Anneal.lean ====
section
/-! DEFINITION. Machine/Anneal.lean: annealing runs (09_annealing.md): checkpoints and energies, the best state, the staged
parameters, the trace ring, and the boundary frames of hedges that span modules. -/

namespace Sys2Proof.Machine

/-! ### Energy (R211, R214) -/

/-- FP64, for the energies as software reads them (R214). -/
def fp64 : Fmt := ⟨11, 52, 1023, true⟩

/-- An energy in units of 2^−129 as FP64, rounded once to nearest even. -/
def energy64 (e : Int) : Word64 := BitVec.ofNat 64 (encodeFl fp64 .rne (ofInt e (-129))).1

/-- E_best as FP64: +∞ when there is none (R215). -/
def best64 (e : Option Int) : Word64 := match e with | some x => energy64 x | none => 0x7FF0000000000000

/-- E_a of one array over every active unit of every sheet, in units of 2^−129 (R211). -/
def arrayEnergy (u : Su) : Int :=
  ((List.range (sheetCount u)).flatMap fun sh => (List.range (activeBlocks u.mode.toNat)).map fun b =>
    let x := blockOf u sh b
    let scale : Int := 2 ^ (((if u.mode = 0 then mget u.xexp 0 b else 0) + 128).toNat)
    ((List.range 64).map fun i => vOf u b x i * (mget x.fields 0 i + mget x.bias 0 i)).sum * -scale).sum

/-- The hedge energy: the exact sum over its arrays. -/
def hedgeEnergy (s : State) (i : Inst) : Int := ((clustersOf i).map fun c => arrayEnergy (clusterAt s c).su).sum

/-- The larger of two FP32 offsets. -/
def maxWord (a b : Word) : Word := if flLt (f32 a) (f32 b) then b else a

/-- The largest bramble offset in a hedge (R226). -/
def largestBramble (s : State) (i : Inst) : Word :=
  (clustersOf i).foldl (fun m c => (List.range 64).foldl (fun m b => maxWord m (mget (clusterAt s c).su.ann {} b).bramble) m) 0

/-- Change the annealing run of an instance. -/
def modAnn (s : State) (h : Nat) (f : Anneal → Anneal) : State := modInst s h fun i => { i with ann := f i.ann }

/-- The checkpoints that a hedge's plan declares (R213). -/
def planCheckpoints (i : Inst) : List (Nat × Bool) := match i.plan with | some l => l.plan.checkpoints | none => []

/-- A hedge runs its WORK and its tick in progress is not discarded. -/
def hedgeWorks (s : State) (h : Nat) : Bool :=
  (instAt s h).st == .running && s.tck.phase == .work && !(discarded (instAt s h))

/-- The states of every sheet of an array, sheet × 64 + block. -/
def allStates (u : Su) : FMap Word64 := blockMap u (·.states)

/-- The engines of every array of a hedge run up to a WORK cycle. -/
def advanceArrays (s : State) (h t : Nat) : State :=
  (clustersOf (instAt s h)).foldl (fun u c => suAdvance c t suFuel u) s

/-- CHECKPOINT: at the WORK cycle that the plan declares the hedge energy is formed, with the accepted flips since the previous
checkpoint and the states that a new best captures (R211, R213, R214, R216, R226, entry 22). -/
def execCheckpoint (h : InstId) (s : State) : Result :=
  .next <|
    let i := instAt s h.val
    match (planCheckpoints i)[i.ann.formed]? with
    | some p =>
      if hedgeWorks s h.val ∧ i.ann.due.isNone then
        let s0 := advanceArrays s h.val p.1
        let acc := ((clustersOf i).map fun c => (clusterAt s0 c).su.ckptFlips).sum
        let k : Ckpt :=
          { cycle := p.1, energy := hedgeEnergy s0 i, settled := p.2,
            sweep := Nat.min (clusterAt s0 (leadOf i)).su.sweeps 0xFFFFFF, accepts := Nat.min acc 0xFFFFFFFF,
            bramble := largestBramble s0 i, states := (clustersOf i).map fun c => (c, allStates (clusterAt s0 c).su) }
        let s1 := modAnn s0 h.val fun a => { a with due := some k, formed := a.formed + 1, countProv := a.countProv + 1 }
        (clustersOf i).foldl (fun t c => modCluster t c fun k => { k with su := { k.su with ckptFlips := 0 } }) s1
      else s
    | none => s

/-! ### Best state and trace records (R215–R217, R223, R225, R226) -/

/-- The tally latency L_E in FCLK cycles (09, Terms). -/
def tallyLatency : Nat := 3072

/-- The states of all sheets go to the best area, 512 B a sheet in sheet order, at WORK cycle `t` (R216). -/
def captureBest (t : Nat) (k : Cluster) (base : Nat) (st : FMap Word64) : Cluster :=
  (List.range (sheetCount k.su)).foldl (fun y sh =>
    landRange y t t (base * 64 + 512 * sh)
      ((List.range 64).flatMap fun b => leBytes 8 (mget st 0 (sh * 64 + b)).toNat)) k

/-- The hedge spans modules (XMOD). -/
def spansModules (i : Inst) : Bool := match i.plan with | some l => !l.plan.peers.isEmpty | none => false

/-- The flags of a trace record at its checkpoint; commit adds the tick's GHOST_STALE and UNLOCKED, and OVERRUN (R226). -/
def recFlags (i : Inst) (new settled : Bool) : BitVec 8 :=
  BitVec.ofNat 8 (b2n new + 2 * b2n (!settled) + 4 * b2n (spansModules i) + 32 * b2n i.ann.envelope + 64 * b2n i.replaying)

/-- CHECKPOINT_RESULT: L_E cycles later the exact energies are compared; a new best captures the states and resets the
brambles, and a trace record is kept for the commit when it is due (R215, R216, R223, R225). -/
def execCheckpointResult (h : InstId) (s : State) : Result :=
  .next <|
    let i := instAt s h.val
    match i.ann.due with
    | some k =>
      if hedgeWorks s h.val then
        let new := k.settled && (match i.ann.eBestProv with | some b => decide (k.energy < b) | none => true)
        let best := if new then some k.energy else i.ann.eBestProv
        let base := match i.plan with | some l => l.plan.bestBase | none => 0
        let t0 := k.cycle + tallyLatency
        let s1 := if new then
            k.states.foldl (fun t p => modCluster t p.1 fun y =>
              let z := captureBest t0 y base p.2
              { z with su := bestReset z.su i.ann.par.floor }) (advanceArrays s h.val t0)
          else s
        let due := (0 < i.ann.every ∧ i.ann.countProv % i.ann.every = 0) ∨ (new ∧ i.ann.onBest)
        let r : TraceRec :=
          { tick := i.htick.setWidth 32, sweep := k.sweep, flags := recFlags i new k.settled, eCur := energy64 k.energy,
            eBest := best64 best, accepts := k.accepts, bramble := k.bramble }
        modAnn s1 h.val fun a => { a with
          due := none, eBestProv := best, eCurProv := some k.energy
          recs := if due then a.recs ++ [r] else a.recs
          envelope := if due then false else a.envelope }
      else s
    | none => s

/-- The annealing run at the start of a tick, and after a discarded one: provisional values return to the committed ones (R217,
R226, R227); a tick that starts unlocked is marked. -/
def annealRevert (locked : Bool) (a : Anneal) : Anneal :=
  { a with due := none, formed := 0, eBestProv := a.eBest, eCurProv := none, countProv := a.count, recs := [],
           stale := false, unlocked := !locked, envelope := a.envBase }

/-- A trace record's bytes (R226). -/
def recBytes (r : TraceRec) : List Byte :=
  leBytes 4 r.tick.toNat ++ leBytes 3 r.sweep ++ [r.flags] ++ leBytes 8 r.eCur.toNat ++ leBytes 8 r.eBest.toNat ++
    leBytes 4 r.accepts ++ leBytes 4 r.bramble.toNat

/-- One record goes to the trace ring, or is dropped when the ring is full (R227). -/
def writeRec (h : Nat) (s : State) (r : TraceRec) : State :=
  let a := (instAt s h).ann
  let n := (a.trHead + 1) % 2 ^ a.trSize
  if n = a.trTail then modAnn s h fun a => { a with trDrop := a.trDrop + 1, overrun := true }
  else
    let fl : BitVec 8 := r.flags ||| (if a.stale then 8 else 0) ||| (if a.unlocked || !s.tck.locked then 16 else 0) |||
      (if a.overrun then 128 else 0)
    modAnn (vaWrite s h (a.trBase.toNat + 32 * a.trHead) (recBytes { r with flags := fl })) h
      fun a => { a with trHead := n, overrun := false }

/-- The commit of an annealing run: records, E_best, the last energy and the running count (R217, R225, R227). -/
def annealCommit (s : State) (h : Nat) : State :=
  let s1 := (instAt s h).ann.recs.foldl (writeRec h) s
  let s2 := modAnn s1 h fun a => { a with
    eBest := a.eBestProv, eCur := a.eCurProv.getD a.eCur, count := a.countProv, recs := [], envBase := a.envelope }
  (clustersOf (instAt s2 h)).foldl (fun t c => modCluster t c fun k =>
    { k with su := { k.su with ckptBase := k.su.ckptFlips } }) s2

/-! ### Staged parameters (R219, R222) -/

/-- The lead cluster's SUA page. -/
def pgLeadSua (i : Inst) : Nat := pgClu (leadOf i) 3

/-- The parameters that a staged write changes (R219): offsets 0x20C–0x220 and the schedule. -/
def stagePar (p : AnnPar) (off : Nat) (v : Word) : Option AnnPar :=
  if off = 0x20C then some { p with tmin := v }
  else if off = 0x210 then some { p with tmax := v }
  else if off = 0x214 then some { p with floor := v }
  else if off = 0x218 then some { p with ceil := v }
  else if off = 0x21C then some { p with step := v }
  else if off = 0x220 then some { p with amin := v.toNat % 32768, wm1 := bits v.toNat 23 16 }
  else if 0x400 ≤ off ∧ off < 0x800 ∧ off % 4 = 0 then
    some { p with sched := mset p.sched 0x3F800000 ((off - 0x400) / 4) v }
  else none

/-- The hedge has a rectangle, and so a lead page (R95). -/
def formed (i : Inst) : Bool := decide (0 < i.w ∧ 0 < i.h)

/-- SUA_STAGED_WRITE (R219). -/
def execSuaStagedWrite (h : InstId) (off : BitVec 12) (v : Word) (s : State) : Result :=
  .next <|
    let i := instAt s h.val
    match stagePar (i.ann.staged.getD i.ann.par) off.toNat v with
    | some p => if formed i then bar0Write s (pgLeadSua i) fun t => modAnn t h.val fun a => { a with staged := some p } else s
    | none => s

/-- BEST_CLR: E_best becomes +∞ at the next boundary (R215). -/
def execBestClr (h : InstId) (s : State) : Result :=
  .next <|
    if formed (instAt s h.val) then
      bar0Write s (pgLeadSua (instAt s h.val)) fun t => modAnn t h.val fun a => { a with bestClr := true }
    else s

/-- An FP32 value is finite. -/
def finite (w : Word) : Bool := match f32 w with | .fin .. => true | _ => false

/-- An FP32 value is finite and above 0. -/
def positive (w : Word) : Bool := finite w && flLt (.fin false 0 0) (f32 w)

/-- The conditions of R219 on staged parameters. -/
def parOk (p : AnnPar) : Bool :=
  p.sched.all (fun e => positive e.2) &&
    positive p.tmin && finite p.tmax && flLe (f32 p.tmin) (f32 p.tmax) &&
    finite p.floor && finite p.ceil && flLe (.fin false 0 0) (f32 p.floor) && flLe (f32 p.floor) (f32 p.ceil) &&
    finite p.step && flLe (.fin false 0 0) (f32 p.step)

/-- Staged parameters apply together, or none of them with PG_ERR bit 0 (R219). -/
def decidePar (s : State) (h : Nat) : State :=
  match (instAt s h).ann.staged with
  | none => s
  | some p =>
    if parOk p then modAnn s h fun a => { a with par := p, staged := none }
    else pgErr (modAnn s h fun a => { a with staged := none }) (pgLeadSua (instAt s h)) 0

/-- A bramble offset held in the envelope [FLOOR, CEIL] (R222). -/
def clampBramble (p : AnnPar) (w : Word) : Word :=
  if flLt (f32 w) (f32 p.floor) then p.floor else if flLt (f32 p.ceil) (f32 w) then p.ceil else w

/-- The blocks' offsets at a boundary, and how many the envelope moved (R222, R224). -/
def boundaryBramble (p : AnnPar) (u : Su) : Su × Nat :=
  if u.carry then
    let ann := (List.range 64).foldl (fun m b =>
      mmod m {} b fun a => { a with bramble := clampBramble p a.bramble }) u.ann
    ({ u with ann := ann, brReset := false },
     ((List.range 64).filter fun b => decide ((mget ann {} b).bramble ≠ (mget u.ann {} b).bramble)).length)
  else (resetBramble u p.floor, 0)

/-- A boundary's work for the annealing run of a formed instance (R215, R219, R222, R224). -/
def annealBoundary (s : State) (h : Nat) : State :=
  let s1 := modAnn s h fun a => if a.bestClr then { a with bestClr := false, eBest := none, eBestProv := none } else a
  let s2 := decidePar s1 h
  let p := (instAt s2 h).ann.par
  (clustersOf (instAt s2 h)).foldl (fun t c =>
    let r := boundaryBramble p (clusterAt t c).su
    modAnn (modCluster t c fun k => { k with su := r.1 }) h fun a => { a with brConf := a.brConf + BitVec.ofNat 32 r.2 }) s2

/-! ### Boundary frames (R228–R232, R322) -/

/-- The hedge tick that a frame's TICK field means: the one nearest the receiver's own (entry 22). -/
def fullTick (mine : Word64) (t : Word) : Int := (mine.toNat : Int) - (mine.setWidth 32 - t).toInt

/-- The peers of a hedge's plan. -/
def planPeers (i : Inst) : List Peer := match i.plan with | some l => l.plan.peers | none => []

/-- The index of the peer whose frames come on a flow of a port. -/
def peerOf (i : Inst) (n f : Nat) : Option Nat := (planPeers i).findIdx? fun p => p.port.val == n && p.flow.val == f

/-- The group states that a frame carries, from its first group index. -/
def frameGroups (p : KtPacket) : List (Nat × Word64) :=
  (List.range (p.payload.length / 8)).map fun j =>
    (p.offset.toNat + j, BitVec.ofNat 64 (leNat ((p.payload.drop (8 * j)).take 8)))

/-- One group's states go to its ghost slots, with the encoding of the block it names (R228, R230, entry 22). -/
def ghostGroup (i : Inst) (g : XGroup) (w : Word64) (s : State) : State :=
  modCluster s (globalId i g.loc) fun k =>
    { k with su := (List.range 64).foldl (fun (u : Su) j => { u with
        received := mset u.received false (g.ghost + j) (w.getLsbD j)
        ghostEnc := mset u.ghostEnc false (g.ghost + j) (u.enc.getLsbD g.block) }) k.su }

/-- A frame of hedge tick `tick` from peer `j` goes to its ghost slots (R230). -/
def applyFrame (s : State) (h j tick : Nat) (unl : Bool) (gs : List (Nat × Word64)) : State :=
  match (planPeers (instAt s h))[j]? with
  | none => s
  | some p =>
    let s1 := gs.foldl (fun u g => match p.receives[g.1]? with | some r => ghostGroup (instAt s h) r g.2 u | none => u) s
    modAnn s1 h fun a => { a with
      peers := mset a.peers {} j { newest := none, applied := some tick, got := true }, unlocked := a.unlocked || unl }

/-- A frame from a peer waits for the next OPEN, when it is newer than one that waits already (R230). -/
def keepFrame (x : PeerSt) (t : Nat) (unl : Bool) (g : List (Nat × Word64)) : PeerSt :=
  match x.newest with
  | some (t0, _, _) => if t0 < t then { x with newest := some (t, unl, g) } else x
  | none => { x with newest := some (t, unl, g) }

/-- The cutoff of boundary frames after t0, in ns (R32). -/
def frameCutoff : Nat := 500

/-- BOUNDARY_FRAME_RECEIVE (R32, R230, R322): a frame accepted `offsetNs` after t0 goes to its ghost slots in OPEN up to the cutoff, and
waits for the next OPEN otherwise; it is counted in SUA_XLATE when it is no newer than the last one applied, or dropped. -/
def execBoundaryFrameReceive (n : PortId) (offsetNs : Nat) (s : State) : Result :=
  .next (withPkt s n.val (fun p => p.typ == 3) fun t f h p =>
    let i := instAt t h
    match peerOf i n.val f with
    | some j =>
      if i.st ≠ .running then countDrop t h
      else
        let full := fullTick i.htick p.tick
        let x := mget i.ann.peers {} j
        let late := match x.applied with | some a => decide (full ≤ a) | none => decide (full < 0)
        if late then touch (modAnn t h fun a => { a with xLate := a.xLate + 1 }) (pgLeadSua i)
        else if t.tck.phase = .openP ∧ ticking t ∧ offsetNs ≤ frameCutoff then
          applyFrame t h j full.toNat p.unlocked (frameGroups p)
        else modAnn t h fun a => { a with peers := mset a.peers {} j (keepFrame x full.toNat p.unlocked (frameGroups p)) }
    | none => countDrop t h)

/-- At the start of OPEN the newest frame of peer `j` accepted by t0 goes to its ghost slots (R230). -/
def openPeer (h : Nat) (s : State) (j : Nat) : State :=
  let x := mget (instAt s h).ann.peers {} j
  match x.newest with
  | some (t, unl, gs) => applyFrame s h j t unl gs
  | none => modAnn s h fun a => { a with peers := mset a.peers {} j { x with got := false } }

/-- The peers of a hedge by index. -/
def peerIdx (i : Inst) : List Nat := List.range (planPeers i).length

/-- The start of OPEN for the peers of a hedge. -/
def openPeers (s : State) (h : Nat) : State := (peerIdx (instAt s h)).foldl (openPeer h) s

/-- A frame of peer `j` that was due has not come by the cutoff (R231): that of hedge tick n − 1, a multiple of k, unless it has come
already, before a replay (entry 22). -/
def frameMissing (i : Inst) (j : Nat) : Bool :=
  let x := mget i.ann.peers {} j
  let k := match i.plan with | some l => l.plan.k | none => 1
  decide (0 < i.htick.toNat ∧ (i.htick.toNat - 1) % k = 0) && !x.got &&
    (match x.applied with | some t => decide (t + 1 < i.htick.toNat) | none => true)

/-- The staleness of a peer exceeds SMAX (R232). -/
def tooStale (i : Inst) (j : Nat) : Bool :=
  match (mget i.ann.peers {} j).applied, i.plan with
  | some t, some l => decide (l.plan.smax + t < i.htick.toNat)
  | _, _ => false

/-- After OPEN: missing frames are counted, and a tick with a peer beyond the staleness bound is discarded (R231, R232). -/
def checkPeers (s : State) (h : Nat) : State :=
  let i := instAt s h
  let miss := ((peerIdx i).filter (frameMissing i)).length
  let s1 := if miss = 0 then s else modAnn s h fun a => { a with xMiss := a.xMiss + BitVec.ofNat 32 miss, stale := true }
  if (peerIdx i).any (tooStale i) then
    replayFault (logErr (modAnn s1 h fun a => { a with xStale := a.xStale + 1 })
      { sev := .replay, srcType := 0x43, srcInst := leadOf i, code := 0x4006, inst := h, detail := 0 }) h
  else s1

/-- The committed states of a peer's export groups, from the resident sheets (R229, R310). -/
def exportWords (s : State) (i : Inst) (gs : List XGroup) : List Byte :=
  gs.flatMap fun g =>
    let u := (clusterAt s (globalId i g.loc)).su
    leBytes 8 (blockOf u u.resident g.block).states.toNat

/-- The groups of a peer in runs of at most 1,024. -/
def groupRuns : Nat → List XGroup → List (List XGroup)
  | 0, _ => []
  | n + 1, l => if l.isEmpty then [] else l.take 1024 :: groupRuns n (l.drop 1024)

/-- The boundary frames of the committed tick are ready to leave (R229, R322). -/
def sendBoundaryFrames (s : State) (h : Nat) : State :=
  let i := instAt s h
  let k := match i.plan with | some l => l.plan.k | none => 1
  if k = 0 ∨ i.htick.toNat % k ≠ 0 then s
  else (planPeers i).foldl (fun t p =>
    let runs := groupRuns p.exports.length p.exports
    ((List.range runs.length).zip runs).foldl (fun u r =>
      queueFrame u p.port.val (ktFrame u p.port.val p.flow.val h 0
        (ktPacket u p.port.val p.flow.val 3 0 0 (BitVec.ofNat 64 (1024 * r.1)) (exportWords u i r.2) false))) t) s

end Sys2Proof.Machine
end

