-- ==== Sys2Proof/Machine/Supervisors.lean ====
section
/-! DEFINITION. Machine/Supervisors.lean: the four supervisors (R387–R392): heartbeats and votes, the takeover of the tick
master, the forced takeover and the mirror record. -/

namespace Sys2Proof.Machine

def pgSup (n : Nat) : Nat := pgPort n 0

/-- The primary supervisor: P0 until a takeover, P1 after it (R387, R389). -/
def primarySup (s : State) : Nat := if s.tck.masterP1 then 1 else 0

/-- SUP ROLE: 0 primary, 1 standby, 2 witness, 3 failed. -/
def supRole (s : State) (n : Nat) : Nat :=
  if (supAt s n).failed then 3 else if n = primarySup s then 0 else if n = 1 then 1 else 2

/-- The supervisors other than `n` that are not failed: the live voters on it (R388). -/
def votersOn (s : State) (n : Nat) : List Nat := (List.range 4).filter fun m => m != n && !(supAt s m).failed

/-- The RUNNING hedges whose commit has not completed while COMMIT is in progress (R51, R391). -/
def openCommits (s : State) : List Nat :=
  if s.tck.phase = .commit then
    (s.insts.filter fun p => p.2.st == .running && !p.2.committed && !(discarded p.2)).map (·.1)
  else []

/-- P1 becomes primary and tick master (R389); a takeover during COMMIT discards the commits not yet complete (R391). -/
def takeOver (s : State) : State :=
  let l := openCommits s
  let s1 := modTck s fun k => { k with masterP1 := true }
  let s2 := (List.range 4).foldl (fun t n => modSup t n fun x => { x with term := x.term + 1 }) s1
  let s3 := logErr (bump (bump s2 (pgSup 1) 5) pgTck 5)
    { sev := if l = [] then .note else .replay, srcType := 0x03, srcInst := 1, code := 0x5004, inst := 0, detail := 0 }
  l.foldl replayFault s3

/-- A supervisor is declared failed (R388); a failed primary hands over to a live standby (R389, R392). -/
def supFailed (s : State) (n : Nat) : State :=
  let wasPrimary := decide (n = primarySup s)
  let s1 := logErr (touch (modSup s n fun x => { x with failed := true }) (pgSup n))
    { sev := .note, srcType := 0x03, srcInst := n, code := 0x5003, inst := 0, detail := n }
  if wasPrimary ∧ standbyLive s then takeOver s1 else s1

/-- HEARTBEAT (R387, R389): the receiver counts the sender as live again; a failed sender, or one of an older term, is
ignored. The heartbeat is counted as sent once, when the next supervisor of the ring has it. -/
def execHeartbeat (src dst : PortId) (term : Word) (s : State) : Result :=
  .next <|
    let a := src.val
    let b := dst.val
    if a = b ∨ (supAt s a).failed ∨ term.toNat < (supAt s b).term.toNat then s
    else
      let s1 := if b = (a + 1) % 4 then bump s (pgSup a) 0 else s
      touch (modSup s1 b fun x => { x with
        missed := mset x.missed 0 a 0, suspect := x.suspect &&& ~~~((1 : BitVec 4) <<< a)
        voted := x.voted &&& ~~~((1 : BitVec 4) <<< a), noQuorum := x.noQuorum && decide (x.suspect ≠ 1 <<< a)
        term := term }) (pgSup b)

/-- A supervisor marks another suspect, and votes (R387, R388). -/
def suspectSup (s : State) (a b : Nat) : State :=
  let s1 := bump (modSup s b fun x => { x with
    suspect := x.suspect ||| (1 <<< a), voted := x.voted ||| (1 <<< a) }) (pgSup b) 2
  let voters := votersOn s1 a
  if voters.length < 2 then
    logErr (voters.foldl (fun t m => modSup t m fun x => { x with noQuorum := true }) s1)
      { sev := .note, srcType := 0x03, srcInst := b, code := 0x5005, inst := 0, detail := a }
  else if 2 ≤ (voters.filter fun m => (supAt s1 m).suspect.getLsbD a).length then supFailed s1 a
  else s1

/-- HEARTBEAT_MISSED (R387, R388): the third in a row from one supervisor makes it suspect; two votes declare it failed. -/
def execHeartbeatMissed (src dst : PortId) (s : State) : Result :=
  .next <|
    let a := src.val
    let b := dst.val
    if a = b ∨ (supAt s a).failed ∨ (supAt s b).failed then s
    else
      let n := mget (supAt s b).missed 0 a + 1
      let s1 := logErr (bump (modSup s b fun x => { x with missed := mset x.missed 0 a n }) (pgSup b) 1)
        { sev := .note, srcType := 0x03, srcInst := b, code := 0x5002, inst := 0, detail := a }
      if 3 ≤ n ∧ !(supAt s b).suspect.getLsbD a then suspectSup s1 a b else s1

/-- SUP_FORCE: SUP_CTL.FORCE on P1's page waits for the boundary (R392). -/
def execSupForce (s : State) : Result :=
  .next (bar0Write s (pgSup 1) fun t => modSup t 1 fun x => { x with force := true })

/-- A forced takeover at a boundary (R392): without a live standby there is none. The old primary counts as failed. -/
def applyForce (s : State) : State :=
  if (supAt s 1).force then
    let s1 := modSup s 1 fun x => { x with force := false }
    if standbyLive s1 then takeOver (modSup s1 0 fun x => { x with failed := true }) else s1
  else s

/-- The primary sends the standby its mirror record at a commit point (R390). -/
def mirrorRecord (s : State) : State :=
  let p := primarySup s
  if (supAt s p).failed then s
  else
    let step (t : State) (n : Nat) : State := bump (modSup t n fun x => { x with mirSeq := x.mirSeq + 1 }) (pgSup n) 3
    if standbyLive s then step (step s p) 1 else step s p

end Sys2Proof.Machine
end

