-- ==== Sys2Proof/Machine/Avs.lean ====
section
/-! DEFINITION. Machine/Avs.lean: the voltage loop, the clock-grade loop with the thermal override, the temperatures they
read, and link equalisation (R394–R398, R420–R423). -/

namespace Sys2Proof.Machine

/-- The page of AVS die entry 0–11, the AVS device page, and the THM and PWR pages. -/
def pgAvs (d : Nat) : Nat := if d < 8 then pgDie d 3 else pgPort (d - 8) 4
def pgAvsDev : Nat := 10
def pgThm : Nat := 3
def pgPwr : Nat := 2

/-! ### Voltage (R395) -/

/-- AVS_VENV_WRITE: accepted within the fused limits for the next boundary, else ignored with PG_ERR bit 0 (R394, R395). -/
def writeVenv (d : Nat) (v : Word) (s : State) : State :=
  let a := avsAt s d
  let lo := bits v.toNat 11 0
  let hi := bits v.toNat 27 16
  if lo < a.fusedMin ∨ a.fusedMax < hi ∨ hi < lo then pgErr s (pgAvs d) 0
  else modAvs s d fun a => { a with staged := some (lo, hi) }

def execAvsVenvWrite (d : Fin 12) (v : Word) (s : State) : Result :=
  .next (bar0Write s (pgAvs d.val) (writeVenv d.val v))

/-- A staged envelope applies, and the loop is clamped into it (R394). -/
def applyVenv (a : Avs) : Avs :=
  match a.staged with
  | some (lo, hi) => { a with staged := none, vmin := lo, vmax := hi, vnow := Nat.max lo (Nat.min hi a.vnow) }
  | none => a

/-- One step of the voltage loop of die `d` at a boundary (R395): at most 5 mV, up when margin is short, down when there is
excess; a step that the envelope blocks is a conflict, and at VMAX with margin short MARGIN_LOW is set. -/
def voltageStep (short excess : Bool) (s : State) (d : Nat) : State :=
  let s0 := modAvs s d applyVenv
  let a := avsAt s0 d
  if short then
    if a.vnow < a.vmax then
      touch (modAvs s0 d fun a => { a with vnow := Nat.min a.vmax (a.vnow + 5), marginLow := false }) (pgAvs d)
    else
      let s1 := loopConflict (touch (modAvs s0 d fun a => { a with vconf := a.vconf + 1, marginLow := true }) (pgAvs d)) 2 0x33 d
      if a.marginLow then s1
      else logErr s1 { sev := .note, srcType := 0x33, srcInst := d, code := 0x9002, inst := 0, detail := a.vnow }
  else
    let s1 := modAvs s0 d fun a => { a with marginLow := false }
    if !excess then s1
    else if a.vmin < a.vnow then touch (modAvs s1 d fun a => { a with vnow := Nat.max a.vmin (a.vnow - 5) }) (pgAvs d)
    else loopConflict (touch (modAvs s1 d fun a => { a with vconf := a.vconf + 1 }) (pgAvs d)) 2 0x33 d

/-- The voltage loops of every die; PG_CNT3 of the device page counts ticks with MARGIN_LOW (R395). -/
def voltageLoop (i : BoundaryIn) (s : State) : State :=
  let s1 := (List.range 12).foldl (fun t d => voltageStep (i.marginShort.getLsbD d) (i.marginOver.getLsbD d) t d) s
  if (List.range 12).any fun d => (avsAt s1 d).marginLow then bump s1 pgAvsDev 3 else s1

/-! ### Staged envelopes (R394) -/

/-- A staged noise-trim envelope applies: every block's trim code is clamped into it (R236, R394). -/
def applyTrimEnv (s : State) : State :=
  match s.ent.trimStaged with
  | none => s
  | some (lo, hi) =>
    let clamp (k : Cluster) : Cluster := { k with su := { k.su with noise := (List.range 64).foldl (fun m b =>
      mmod m {} b fun n => { n with trim := max lo (min hi n.trim) }) k.su.noise } }
    let s1 := (List.range 512).foldl (fun t c => modCluster t c clamp) s
    touch (modEnt s1 fun e => { e with trimStaged := none, trimLo := lo, trimHi := hi }) 4

/-- A staged AVS_GENV applies; the grade loop clamps the grade (R396). -/
def applyGenv (s : State) : State :=
  match s.avsDev.genvStaged with
  | none => s
  | some (f, w) => touch (modAvsDev s fun a => { a with genvStaged := none, genvFast := f, genvSlow := w }) pgAvsDev

/-- A staged equaliser envelope applies, and the die's receivers are clamped into it (R394, R398). -/
def applyEqEnv (s : State) (d : Nat) : State :=
  match (avsAt s d).eqStaged with
  | none => s
  | some (lo, hi) =>
    touch (modAvs s d fun a => { a with
      eqStaged := none, eqLo := lo, eqHi := hi
      eq := (List.range 512).foldl (fun m n => mmod m 0 n fun v => max (lo : Int) (min hi v)) a.eq }) (pgAvs d)

/-- Every staged envelope applies at a boundary (R394). -/
def applyEnvelopes (s : State) : State :=
  (List.range 12).foldl (fun t d => applyEqEnv (modAvs t d applyVenv) d) (applyGenv (applyTrimEnv s))

/-! ### Temperatures (R420–R423) -/

/-- Warning, critical and trip thresholds of THM entry n, in 0.1 °C: dies 0–11, stacks 12–19 (R420). -/
def thresholds (t : Thm) (n : Nat) : Int × Int × Int :=
  if n < 12 then (10 * t.warn, 10 * t.crit, 1150) else (850, 950, 1050)

/-- A threshold with 2 °C of hysteresis: entered when `above`, left more than 2 °C below it (R420). -/
def hysteresis (was above : Bool) (v lim : Int) : Bool := if was then decide (lim - 20 ≤ v) else above

/-- The maps after one sample: warning is entered above its threshold, critical at it. -/
def sampleMaps (t : Thm) (temps : List Int) : BitVec 20 × BitVec 20 :=
  (List.range 20).foldl (fun m n =>
    let v := temps.getD n 0
    let lim := thresholds t n
    ( if hysteresis (t.warnMap.getLsbD n) (decide (lim.1 < v)) v lim.1 then m.1 ||| (1 <<< n) else m.1,
      if hysteresis (t.critMap.getLsbD n) (decide (lim.2.1 ≤ v)) v lim.2.1 then m.2 ||| (1 <<< n) else m.2)) (0, 0)

/-- The parts newly in a map. -/
def newBits (old new : BitVec 20) : List Nat := (List.range 20).filter fun n => new.getLsbD n && !(old.getLsbD n)

/-- The device samples every die and stack (R420): new warnings are logged, warning ticks counted, and the ticks with every
part below its warning threshold counted toward R421. -/
def thermalSample (temps : List Int) (s : State) : State :=
  let m := sampleMaps s.thm temps
  let cool := (List.range 20).all fun n => decide (temps.getD n 0 < (thresholds s.thm n).1)
  let s1 := (newBits s.thm.warnMap m.1).foldl (fun t n =>
    logErr t { sev := .note, srcType := 0x05, srcInst := 0, code := 0x8007, inst := 0, detail := n }) s
  let s2 := modThm s1 fun t => { t with
    warnMap := m.1, critMap := m.2, below := if cool then t.below + 1 else 0
    temps := (List.range 20).foldl (fun a n => mset a 0 n (temps.getD n 0)) t.temps }
  touch (if m.1 = 0 then s2 else bump s2 pgThm 1) pgThm

/-- Some part is at its trip temperature: save cause 5 (R409, R420). -/
def tripped (s : State) (temps : List Int) : Bool :=
  (List.range 20).any fun n => decide ((thresholds s.thm n).2.2 ≤ temps.getD n 0)

/-- The coolant is read; above THM_COOL.WARN a NOTE is logged (R423). A sensor line that is not OK supervises nothing (R426). -/
def coolantSample (v : Int) (s : State) : State :=
  if !(lineOk s 10) then s
  else
    let warm := decide ((10 * s.thm.coolWarn : Int) < v)
    let s1 := touch (modThm s fun t => { t with coolT := v, coolWarned := warm }) pgThm
    if warm ∧ !s.thm.coolWarned then
      logErr (bump s1 pgThm 2) { sev := .note, srcType := 0x05, srcInst := 0, code := 0x8008, inst := 0, detail := ofSigned 32 v }
    else s1

/-- The thermal override (R397, R421): one grade slower, even below the envelope; at G3 no further drop. -/
def overrideDrop (injected : Bool) (s : State) : State :=
  let s1 := logErr (bump (bump (modThm s fun t => { t with override := true, below := 0 }) pgThm 0) pgAvsDev 2)
    { sev := .replay, srcType := 0x05, srcInst := 0, code := 0x8001, inst := 0, detail := s.avsDev.grade, injected := injected }
  if s.avsDev.grade < 3 then bump (modAvsDev s1 fun a => { a with grade := a.grade + 1, clean := 0 }) pgAvsDev 0 else s1

/-- THERMAL_OVERRIDE_CLEAR (R421): after 1,024 consecutive ticks with every part below warning. -/
def execThermalOverrideClear (s : State) : Result :=
  .next <|
    if s.thm.override ∧ 1024 ≤ s.thm.below then
      touch (modThm s fun t => { t with override := false }) pgThm
    else s

/-! ### The clock grade (R396) -/

/-- The effective envelope: AVS_GENV with that of every instance RUNNING at the boundary (R396, R492). -/
def effEnvelope (before s : State) : Nat × Nat :=
  instIds.foldl (fun e id =>
    if runningAtBoundary before s id then
      (Nat.max e.1 (instAt s id).gradeFast, Nat.min e.2 (instAt s id).gradeSlow)
    else e) (s.avsDev.genvFast, s.avsDev.genvSlow)

/-- A step of the grade loop that the envelope blocks (R394). -/
def gradeConflict (s : State) : State :=
  loopConflict (touch (modAvsDev s fun a => { a with gconf := a.gconf + 1 }) pgAvsDev) 3 0x33 0x100

/-- The clean ticks that the loop needs before a step up; AVS_GUP is at least 16. -/
def gupLimit (a : AvsDev) : Nat := Nat.max 16 a.gup

/-- The grade loop at a boundary (R31, R396, R397): clamped into the envelope, then one step slower on a demand, which is a
warning temperature, input power above INCAP, or MARGIN_LOW. Under the override the loop rests (R421). -/
def gradeLoop (before : State) (newCrit : Bool) (inputW : Nat) (s : State) : State :=
  let e := effEnvelope before s
  let s0 := modAvsDev (modThm (touch (modPwr s fun p => { p with pin := Nat.min inputW 2047 }) pgPwr)
    fun t => { t with injected := false }) fun a => { a with effFast := e.1, effSlow := e.2 }
  if newCrit ∨ s.thm.injected then overrideDrop (!newCrit) s0
  else if s.thm.override then s0
  else
    let capped := decide (s.pwr.incap < inputW)
    let demand := s.thm.warnMap != 0 || capped || (List.range 12).any fun d => (avsAt s d).marginLow
    if e.2 < e.1 then s0
    else
      let s1 := modAvsDev s0 fun a => { a with grade := Nat.max e.1 (Nat.min e.2 a.grade) }
      if demand then
        let s2 := modAvsDev s1 fun a => { a with clean := 0 }
        if s1.avsDev.grade = 3 then s2
        else if s1.avsDev.grade < e.2 then
          let s3 := bump (modAvsDev s2 fun a => { a with grade := a.grade + 1 }) pgAvsDev 0
          if capped then bump s3 pgPwr 4 else s3
        else gradeConflict s2
      else modAvsDev s1 fun a => { a with clean := a.clean + 1 }

/-- GRADE_STEP_UP (R31, R396, R492): at a boundary, after AVS_GUP clean ticks, one grade faster inside the envelope of that
boundary. It comes with the boundary that completes the count, in OPEN. -/
def execGradeStepUp (s : State) : Result :=
  .next <|
    if s.tck.phase = .openP ∧ gupLimit s.avsDev ≤ s.avsDev.clean ∧ ¬ s.thm.override then
      let s1 := modAvsDev s fun a => { a with clean := 0 }
      if s.avsDev.grade = 0 then s1
      else if s.avsDev.effFast < s.avsDev.grade then
        bump (modAvsDev s1 fun a => { a with grade := a.grade - 1 }) pgAvsDev 1
      else gradeConflict s1
    else s

/-! ### Link equalisation (R398) -/

/-- LINK_EQUALISATION: the setting of a receiver of die `d` moves toward `want` inside the die's AVS_EQENV; outside, it holds at the
edge and the conflict is counted. An Ethernet lane of a port die adapts at any time, a die link in OPEN alone (R394, R398). -/
def execLinkEqualisation (d : Fin 12) (eth : Bool) (lane : Fin 256) (want : Int) (s : State) : Result :=
  .next <|
    if if eth then 8 ≤ d.val else s.tck.phase = .openP then
      let a := avsAt s d.val
      let lo : Int := a.eqLo
      let hi : Int := a.eqHi
      let s1 := touch (modAvs s d.val fun a => { a with
        eq := mset a.eq 0 (lane.val * 2 + b2n eth) (max lo (min hi want)) }) (pgAvs d.val)
      if want < lo ∨ hi < want then
        loopConflict (modAvs s1 d.val fun a => { a with eqConf := a.eqConf + 1 }) 4 0x33 d.val
      else s1
    else s

end Sys2Proof.Machine
end

