-- ==== Sys2Proof/Machine/Plans.lean ====
section
/-! DEFINITION. Machine/Plans.lean: plan images (16_plans.md): the header and the checks of PLAN_LOAD (R183, R265, R270,
R273, R365–R368), what a load installs in the clusters of a hedge, and the conformance comparison (R371–R376). -/

namespace Sys2Proof.Machine

/-! ### The image header (R365, R366) -/

/-- A little-endian field of image bytes. -/
def imgLe (l : List Byte) (k n : Nat) : Nat := leNat ((l.drop k).take n)

/-- The bytes of a range are all 0. -/
def zeroAt (l : List Byte) (k n : Nat) : Bool := imgLe l k n == 0

def imgW (l : List Byte) : Nat := imgLe l 8 1
def imgH (l : List Byte) : Nat := imgLe l 9 1
def imgFast (l : List Byte) : Nat := bits (imgLe l 10 1) 1 0
def imgSlow (l : List Byte) : Nat := bits (imgLe l 10 1) 3 2
def imgPeriod (l : List Byte) : Nat := imgLe l 12 4
def imgLength (l : List Byte) : Nat := imgLe l 16 4
def imgSections (l : List Byte) : Nat := imgLe l 24 2
def imgPlaces (l : List Byte) : Nat := imgLe l 26 2

/-- Where the section directory starts. -/
def imgDir (l : List Byte) : Nat := 64 + 2 * imgPlaces l

/-- TYPE, OFFSET, LENGTH and the reserved half word of a directory entry. -/
def imgSection (l : List Byte) (k : Nat) : Nat × Nat × Nat × Nat :=
  let b := imgDir l + 16 * k
  (imgLe l b 4, imgLe l (b + 4) 4, imgLe l (b + 8) 4, imgLe l (b + 14) 2)

/-- MAGIC, FORMAT and the reserved bits and bytes of the header. -/
def headerOk (l : List Byte) : Bool :=
  imgLe l 0 4 == 0x49505A52 && imgLe l 4 2 == 1 && decide (imgLe l 6 2 < 8) && decide (imgLe l 10 1 < 16) &&
    zeroAt l 11 1 && zeroAt l 28 4 && zeroAt l 48 16 && decide (imgPlaces l ≤ 16)

/-- CHECK: CRC-32C over LENGTH bytes with the field itself 0. -/
def checkOk (l : List Byte) : Bool := imgLe l 20 4 == crc32c (l.take 20 ++ [0, 0, 0, 0] ++ l.drop 24)

/-- Every section has a listed type and lies inside LENGTH; types 1, 7 and 8 are there (R366). -/
def sectionsOk (l : List Byte) : Bool :=
  let secs := (List.range (imgSections l)).map (imgSection l)
  decide (imgDir l + 16 * imgSections l ≤ imgLength l) &&
    secs.all (fun e => decide (1 ≤ e.1 ∧ e.1 ≤ 8 ∧ e.2.1 + e.2.2.1 ≤ imgLength l) && e.2.2.2 == 0) &&
    [1, 7, 8].all fun t => secs.any fun e => e.1 == t

/-- The hedge's origin is a verified placement, or every placement is (R63). -/
def placementOk (l : List Byte) (i : Inst) : Bool :=
  bit (imgLe l 6 2) 1 ||
    (List.range (imgPlaces l)).any fun k => imgLe l (64 + 2 * k) 1 == i.x0 && imgLe l (65 + 2 * k) 1 == i.y0

/-! ### Programs (R166, R169, R172, R183) -/

def opOf (w : Word) : Nat := bits w.toNat 31 26

/-- The OP values of Table — Instruction set. -/
def knownOps : List Nat :=
  [0x00, 0x01, 0x02, 0x03, 0x04, 0x05, 0x06, 0x07, 0x08, 0x09, 0x0B, 0x0C, 0x10, 0x11, 0x12, 0x14, 0x15, 0x16, 0x18, 0x19,
   0x1A, 0x1B, 0x20, 0x21, 0x22, 0x23, 0x24, 0x25, 0x26, 0x28, 0x29, 0x2A, 0x2B, 0x2C, 0x2D, 0x2E, 0x30, 0x31, 0x32, 0x34,
   0x35, 0x36, 0x37, 0x38, 0x39, 0x3A, 0x3B, 0x3C]

/-- The instructions that never carry a predicate (R166). -/
def unpredicated : List Nat := [0x2E, 0x30, 0x31, 0x32, 0x34, 0x35, 0x36, 0x37, 0x38, 0x39, 0x3A, 0x3B]

/-- The loops of a program: level, address, LAST (R169). -/
def loopsOf (ws : List Word) : List (Nat × Nat × Nat) :=
  ((List.range ws.length).zip ws).filterMap fun p =>
    if opOf p.2 = 0x38 then some (b2n (bit p.2.toNat 21), p.1, bits p.2.toNat 20 13) else none

/-- A loop that breaks the nesting of R169: a level-1 body that no level-0 body holds, or a loop inside a body of its own or
a deeper level. -/
def nestingBad (ls : List (Nat × Nat × Nat)) : Bool :=
  ls.any fun l =>
    (l.1 == 1 && !(ls.any fun m => m.1 == 0 && decide (m.2.1 < l.2.1 ∧ l.2.2 ≤ m.2.2))) ||
    ls.any fun m => decide (m.2.1 < l.2.1 ∧ l.2.1 ≤ m.2.2 ∧ l.1 ≤ m.1)

/-- An instruction at address `a` that R183 forbids. -/
def instrBad (lay : Bool) (a : Nat) (w : Word) : Bool :=
  let op := opOf w
  let rs1 := bits w.toNat 16 12
  !(knownOps.contains op) || (unpredicated.contains op && bits w.toNat 25 22 != 0) ||
    (op == 0x38 && decide (bits w.toNat 20 13 < a)) ||
    (op == 0x34 && rs1 % 4 != 0) || ((op == 0x35 || op == 0x36) && rs1 % 2 != 0) ||
    ((op == 0x31 || op == 0x32) && decide (4 < w.toNat % 8)) || (op == 0x39 && lay)

/-- What a program's own constants put into the registers: a context's registers start at 0 (R161); LUI, the immediate forms and what
they build on are followed, and any other write, a predicated one and a loop make a register unknown. -/
def constStep (m : FMap (Option Word)) (w : Word) : FMap (Option Word) :=
  let op := opOf w
  let rd := bits w.toNat 21 17
  let src := if bits w.toNat 16 12 = 0 then some 0 else mget m (some 0) (bits w.toNat 16 12)
  let imm := (w.extractLsb' 0 12).signExtend 32
  let put (v : Option Word) : FMap (Option Word) := mset m (some 0) rd v
  if op = 0x38 then (List.range 32).foldl (fun m r => mset m (some 0) r none) m
  else if op ≠ 0x16 ∧ bits w.toNat 25 22 ≠ 0 then put none
  else if op = 0x16 then put (if bits w.toNat 25 22 = 0 then some (BitVec.ofNat 32 (bits w.toNat 15 0 * 65536)) else none)
  else if op = 0x10 then put (src.map (· + imm))
  else if op = 0x11 then put (src.map (· &&& imm))
  else if op = 0x12 then put (src.map (· ||| imm))
  else if op = 0x14 then put (src.map fun (v : Word) => v <<< (imm.toNat % 32))
  else if op = 0x15 then put (src.map fun (v : Word) => v >>> (imm.toNat % 32))
  else put none

/-- An XFER whose block, as the program's constants give it, has a reserved target or VC (R183; DEDUCED, entry 63: a block that the
program computes from data is found malformed as it runs, with status 3). -/
def xferConstBad : FMap (Option Word) → List Word → Bool
  | _, [] => false
  | m, w :: l =>
    let reg (j : Nat) : Word := (let r := (bits w.toNat 16 12 + j) % 32
                                 if r = 0 then some 0 else mget m (some 0) r).getD 0
    let b := xblock 0 0 (reg 2) (reg 3)
    (opOf w == 0x2E && (b.target == 3 || b.vc == 1 || b.vc == 3)) || xferConstBad (constStep m w) l

/-- The unit configuration of a local cluster. -/
def unitOf (p : Plan) (loc : Nat) : Option UnitImage := p.units.find? fun u => u.loc == loc

/-- The laying depth of a local cluster: 1 unless the image sets it. -/
def layOf (p : Plan) (loc : Nat) : Nat := ((unitOf p loc).map (·.layDepth)).getD 1

/-- The depth of a queue of a context: 0 unless the image sets it. -/
def depthOf (p : Plan) (loc s x q : Nat) : Nat :=
  match p.sprigs.find? fun g => g.loc == loc && g.sprig.val == s with
  | some g => (((g.depths.find? fun d => d.1 == x).map (·.2)).getD []).getD q 0
  | none => 0

/-- A PUSH toward a queue of depth 0, or off the grid edge (R172). -/
def pushBad (p : Plan) (loc s x : Nat) (w : Word) : Bool :=
  opOf w == 0x30 &&
    match neighbour s (w.toNat % 4) with
    | some n => depthOf p loc n x (opposite (w.toNat % 4)) == 0
    | none => true

/-- The depths of a sprig break R172. -/
def depthsBad (lay : Nat) (g : SprigImage) : Bool :=
  g.depths.any (fun d => decide (4 ≤ d.1) || d.2.any (fun n => decide (64 < n)) || decide (256 / lay < d.2.sum)) ||
    decide (256 < (g.depths.map fun d => d.2.sum).sum)

/-- A sprig of the image that R183 refuses. -/
def sprigBad (p : Plan) (g : SprigImage) : Bool :=
  let lay := layOf p g.loc
  depthsBad lay g || g.programs.any fun r =>
    decide (4 ≤ r.1) || decide (256 < r.2.length) || !(r.2.any fun w => opOf w == 0x3A) || nestingBad (loopsOf r.2) ||
      xferConstBad [] r.2 ||
      ((List.range r.2.length).zip r.2).any fun w => instrBad (decide (1 < lay)) w.1 w.2 || pushBad p g.loc g.sprig.val r.1 w.2

/-- A laying depth other than 1, 2 or 4 (R179). -/
def layBad (u : UnitImage) : Bool := !(u.layDepth == 1 || u.layDepth == 2 || u.layDepth == 4)

/-! ### Windows (R265) -/

/-- A buffer lies wholly in WRITE segments; its targets. -/
def bufTargets (i : Inst) (b len : Nat) : Option (List Nat) :=
  (List.range len).mapM fun u => match findSeg i ((b + u) * unit2M) with
    | some g => if g.write then some g.target else none
    | none => none

/-- Two unit ranges meet. -/
def meets (a la b lb : Nat) : Bool := decide (a < b + lb ∧ b < a + la)

/-- A window breaks R265 by itself: buffers outside WRITE segments of one target, buffers that meet, or a range V that meets
a segment. -/
def windowBad (i : Inst) (w : WinDecl) : Bool :=
  (match bufTargets i w.b0 w.len, bufTargets i w.b1 w.len with
   | some a, some b => (a ++ b).any fun t => (a ++ b).any fun u => t != u
   | _, _ => true) ||
    meets w.b0 w.len w.b1 w.len ||
    (List.range 64).any fun n => let g := segView i n
                                 g.valid && meets g.vbase g.len w.v w.len

/-- Two windows break R265 together. -/
def windowsMeet (a b : WinDecl) : Bool :=
  meets a.v a.len b.v b.len || [a.b0, a.b1].any fun x => [b.b0, b.b1].any fun y => meets x a.len y b.len

/-- Pairs of a list. -/
def anyPair {α : Type} (p : α → α → Bool) : List α → Bool
  | [] => false
  | a :: l => l.any (p a) || anyPair p l

/-- Selectors that an instance's windows hold on a compute die: one for each line of a B0 copy there. -/
def selectorsOn (i : Inst) (ws : List WinDecl) (d : Nat) : Nat :=
  (ws.map fun w => ((List.range w.len).filter fun u =>
    ((physOf i ((w.b0 + u) * unit2M)).map dpaDie) == some d).length * 32768).sum

/-- The windows are refused (R265). -/
def windowsBad (s : State) (h : Nat) (ws : List WinDecl) : Bool :=
  let i := instAt s h
  decide (16 < ws.length) || ws.any (windowBad i) || anyPair windowsMeet ws ||
    (List.range 8).any fun d =>
      decide (2 ^ 25 < selectorsOn i ws d +
        (s.insts.map fun p => if p.1 = h then 0 else selectorsOn p.2 p.2.wins d).sum)

/-! ### Carried state (R270, R273) -/

/-- The declaration of a local cluster's carried state. -/
def carriedOf (p : Plan) (loc : Nat) : Option CarriedDecl := p.carried.find? fun c => c.loc == loc

/-- The SU carried image of a local cluster, in bytes: 3D + 4 KiB (R209). -/
def suCarriedBytes (p : Plan) (loc : Nat) : Nat :=
  match unitOf p loc with
  | some u => if u.suCarry then (3 * (match u.suSheets.toNat with | 0 => 1 | 1 => 2 | _ => 4) + 4) * 1024 else 0
  | none => 0

/-- A cluster's carried state in bytes (R270). -/
def carriedBytes (p : Plan) (loc : Nat) : Nat :=
  (match carriedOf p loc with
   | some c => 64 * c.lines.length + roundLine ((c.dmem.map fun r => r.2.2).sum)
   | none => 0) + suCarriedBytes p loc

/-- The mirror area that a declaration names, as a device physical address. -/
def declMirror (i : Inst) (c : CarriedDecl) : Option Nat := (hedgeSlice i c.mirrorSlice).map (· + c.mirrorOff)

/-- The mirror area of a cluster breaks R273: not aligned, not in a slice that the hedge owns in the opposite half of the
cluster's die. -/
def mirrorBad (i : Inst) (c : CarriedDecl) : Bool :=
  let cl := globalId i c.loc
  c.mirrorOff % 65536 != 0 || decide (unit2M ≤ c.mirrorOff) ||
    match (ownedSlices i)[c.mirrorSlice]? with
    | some x => x / 32 != dieOf cl || decide (16 ≤ x % 32) == eastHalf cl
    | none => true

/-- The carried state is refused (R270, R273). -/
def carriedBad (i : Inst) (p : Plan) : Bool :=
  (List.range (i.w * i.h)).any (fun loc =>
    decide (65536 < carriedBytes p loc) ||
      (decide (0 < carriedBytes p loc) && match carriedOf p loc with | some c => mirrorBad i c | none => true)) ||
    anyPair (fun a b => declMirror i a == declMirror i b)
      (p.carried.filter fun c => decide (0 < carriedBytes p c.loc))

/-! ### The calendar requirement (R368) -/

/-- The die-link calendar of the first die edge on the way from router `r` to router `d`, at most `k` hops on (R120, R128). -/
def linkCal (d : Nat) : Nat → Nat → Option Nat
  | 0, _ => none
  | k + 1, r => (hopCal r (outTo r d)).orElse fun _ => if r = d then none else linkCal d k (nextRouter r (outTo r d))

/-- The calendar and the slots of one line, placed. -/
def reqCal (i : Inst) : CalReq → Option Nat × List Nat
  | .hbm loc l => (some (dieOf (globalId i loc)), l)
  | .dieLink a b l => (linkCal (globalId i b) 48 (globalId i a), l)
  | .byIndex c l => (some c.val, l)

/-- The calendar requirement is met: the margin, and every listed slot owned (R368). -/
def calendarMet (s : State) (h : Nat) (p : Plan) : Bool :=
  p.margin == s.calCtl.margin &&
    p.calendar.all fun r => match reqCal (instAt s h) r with
      | (some c, l) => l.all fun n => decide (n < 1024) && ownerIn (calAt s c).table n == h
      | (none, _) => false

/-- PLAN_LOAD is refused with REFUSED_PLAN (R367). `len` is the image length that the descriptor states. -/
def planRefused (s : State) (h : Nat) (p : Plan) (l : List Byte) (len : Nat) : Bool :=
  let i := instAt s h
  decide (len < 64) || decide (imgLength l ≠ len) || !(headerOk l) || !(checkOk l) || !(sectionsOk l) ||
    imgW l != i.w || imgH l != i.h || !(placementOk l i) || imgPeriod l != s.tck.period ||
    decide (i.gradeFast < imgFast l ∨ imgSlow l < i.gradeSlow) || !(calendarMet s h p) ||
    p.sprigs.any (sprigBad p) || p.units.any layBad || windowsBad s h p.windows || carriedBad i p

/-! ### What a load installs (R98) -/

/-- An SU array at 0: its noise sources stay, and the mark of every one that has failed and is substituted (R238). -/
def clearedSu (u : Su) : Su :=
  let failed := (List.range 64).foldl (fun (m : Word64) b => if (mget u.noise {} b).failed then m ||| (1 <<< b) else m) 0
  { ({} : Su) with noise := u.noise, noiseSub := failed, flags := if failed = 0 then 0 else 4 }

/-- A cluster with every memory, register and queue at 0 (R95, R104): what stays is its place in the module, its noise
sources, its generators and its fault history. -/
def clearedCluster (k : Cluster) : Cluster :=
  { ({} : Cluster) with
    avail := k.avail, owner := k.owner, dormant := k.dormant, closed := k.closed, xbrClosed := k.xbrClosed
    residues := k.residues, sprigFaults := k.sprigFaults
    sprigs := mmap {} (fun _ x => { ({} : Sprig) with lfsr := x.lfsr }) k.sprigs
    me := { ({} : Me) with lfsr := k.me.lfsr }
    su := clearedSu k.su
    drw := { ({} : Drw) with lfsr := k.drw.lfsr } }

/-- The queues of a context at the depths of the image (R172). -/
def depthCtx (d : List Nat) (x : Ctx) : Ctx :=
  (List.range 5).foldl (fun y q => setQueue y q { depth := d.getD q 0 }) x

/-- A sprig as the image loads it. -/
def loadSprig (g : SprigImage) (x : Sprig) : Sprig :=
  let y : Sprig :=
    { x with
      imem := g.programs.foldl (fun m r =>
        ((List.range r.2.length).zip r.2).foldl (fun m w => mset m 0 (r.1 * 256 + w.1) w.2) m) ([] : FMap Word)
      prog := g.programs.foldl (fun b r => b ||| (1 <<< r.1)) 0
      dmem := writeBytes [] 0 (g.dmem.take 2048) }
  (List.finRange 4).foldl (fun z a =>
    modCtx z a (depthCtx (((g.depths.find? fun d => d.1 == a.val).map (·.2)).getD []))) y

/-- The unit configuration of the image (R137, R179, R190, R207). -/
def loadUnits (u : UnitImage) (k : Cluster) : Cluster :=
  { k with
    layDepth := u.layDepth, layPeriod := u.layPeriod
    tagSets := u.tags.foldl (fun m t => mset m none t.1 (some t.2)) []
    drw := { k.drw with aclass := u.aclass }
    su := { k.su with
      mode := u.suMode, carry := u.suCarry, sheets := u.suSheets, enc := u.suEnc, ordered := u.suOrder
      sheetVa := ((List.range 4).zip u.suSheetVa).foldl (fun m p => mset m 0 p.1 p.2) [] } }

/-- One cluster as the load leaves it: cleared, then programs, data memory, units and the declared carried state, whose
committed copy holds what was loaded (R98, R270, R271). -/
def loadCluster (i : Inst) (p : Plan) (loc : Nat) (k : Cluster) : Cluster :=
  let k0 := { clearedCluster k with
    cnt := k.cnt, tagPeakPub := k.tagPeakPub, spgFlags := k.spgFlags, me := { (clearedCluster k).me with flags := k.me.flags }
    sprigs := mmap {} (fun _ x => { ({} : Sprig) with lfsr := x.lfsr, pub := x.pub }) k.sprigs
    drw := { (clearedCluster k).drw with flags := k.drw.flags } }
  let k1 := (p.sprigs.filter fun g => g.loc == loc).foldl (fun y g => modSprig y g.sprig.val (loadSprig g)) k0
  let k2 := match unitOf p loc with | some u => loadUnits u k1 | none => k1
  let k3 := match carriedOf p loc with
    | some c => { k2 with carried := { lines := c.lines, dmem := c.dmem, mirror := declMirror i c } }
    | none => k2
  { k3 with carried := { k3.carried with store := carriedLines k3, sprig := carriedDmem k3, su := carriedSu k3.su } }

/-- Install a plan in its hedge (R98, R215, R225, R265): the clusters, the windows, whose selectors stay only when the
declarations are identical, E_best at +∞ and the checkpoint count at 0. The mirror areas take the loaded carried state
(entry 24). -/
def installPlan (s : State) (h : Nat) (l : Loaded) : State :=
  let i := instAt s h
  let s1 := (List.range (i.w * i.h)).foldl (fun t loc => modCluster t (globalId i loc) (loadCluster i l.plan loc)) s
  let s2 := (clustersOf i).foldl (fun t c => match (clusterAt t c).carried.mirror with
    | some a => memWrite t a (mirrorImage (clusterAt t c))
    | none => t) s1
  modInst s2 h fun j => { j with
    plan := some l
    sel := if j.wins = l.plan.windows then j.sel else []
    pend := [], wins := l.plan.windows
    ann := { j.ann with eBest := none, eBestProv := none, count := 0, countProv := 0, due := none, formed := 0, recs := [],
                        peers := [] } }

/-! ### Conformance (R371–R376) -/

/-- The matched counters of a cluster in page order and then offset order, each with its page type and offset, as they
stand in the tick that ends (Table — Matched counters). -/
def cluMatched (k : Cluster) : List (Nat × Nat × Nat) :=
  (List.range 4).map (fun v => (0x40, 0x28 + 4 * v, mget k.flits 0 v)) ++ [(0x40, 0x3C, k.tagStall), (0x40, 0x050, k.tagPeak)]

def meMatched (k : Cluster) : List (Nat × Nat × Nat) :=
  [(0x41, 0x28, k.me.busy), (0x41, 0x2C, k.me.stall), (0x41, 0x30, k.me.cmds), (0x41, 0x3C, k.me.bits)]

/-- The sums of the SPG page: busy, stalls, switches and class B bits over the sprigs. -/
def sprigSum (k : Cluster) (f : SprigCnt → Nat) : Nat := (k.sprigs.map fun p => f p.2.cnt).sum

def spgMatched (k : Cluster) : List (Nat × Nat × Nat) :=
  [(0x42, 0x28, sprigSum k (·.busy)), (0x42, 0x2C, sprigSum k (·.dep) + sprigSum k (·.q) + sprigSum k (·.port)),
   (0x42, 0x30, sprigSum k (·.switch)), (0x42, 0x34, k.issued), (0x42, 0x3C, sprigSum k (·.rnd))] ++
  (List.range 16).flatMap fun p =>
    let n := (sprigAt k p).cnt
    ((List.range 7).zip [n.busy, n.dep, n.q, n.port, n.switch, n.idle, n.rnd]).map fun e => (0x42, 0x100 + p * 0x20 + 4 * e.1, e.2)

def suMatched (k : Cluster) : List (Nat × Nat × Nat) :=
  [(0x43, 0x28, k.su.busyS), (0x43, 0x2C, k.su.busyB), (0x43, 0x30, k.su.stall), (0x43, 0x34, k.su.updates)]

def drwMatched (k : Cluster) : List (Nat × Nat × Nat) :=
  [(0x44, 0x28, k.drw.busy), (0x44, 0x2C, k.drw.stall), (0x44, 0x30, k.drw.cmds), (0x44, 0x34, k.drw.draws),
   (0x44, 0x38, k.drw.bits), (0x44, 0x3C, k.drw.adraws)]

/-- Router output stalls, then each context's enqueues and peaks. The four peaks that share a word are four counters, each with a figure
of its own (R371; entry 42). -/
def cntMatched (k : Cluster) : List (Nat × Nat × Nat) :=
  (List.range 20).map (fun n => (0x45, 0x100 + 4 * n, mget k.cnt.rstall 0 n)) ++
  (List.range 64).flatMap fun n =>
    let x := ctxAt (sprigAt k (n / 4)) ⟨n % 4, Nat.mod_lt _ (by decide)⟩
    let q (j : Nat) : Queue := queueAt x j
    (List.range 5).map (fun j => (0x45, 0x400 + n * 0x20 + 4 * j, (q j).enq)) ++
    (List.range 5).map fun j => (0x45, 0x400 + n * 0x20 + (if j < 4 then 0x14 else 0x18), (q j).peak)

/-- Every matched counter of a cluster (R371: page order, then offset order). -/
def matchedCounters (k : Cluster) : List (Nat × Nat × Nat) :=
  cluMatched k ++ meMatched k ++ spgMatched k ++ suMatched k ++ drwMatched k ++ cntMatched k

/-- The figures of a cluster at a grade; none when the image has none (R371). -/
def figuresOf (p : Plan) (loc grade : Nat) : Option (List Nat) :=
  (p.figures.find? fun f => f.1 == loc && f.2.1 == grade).map (·.2.2)

/-- Counters that differ from their figures: type, offset, figure and count (R374). -/
def mismatches (l : List (Nat × Nat × Nat)) (f : List Nat) : List (Nat × Nat × Nat × Nat) :=
  ((List.range l.length).zip l).filterMap fun p =>
    if p.2.2.2 % 2 ^ 32 = f.getD p.1 0 then none else some (p.2.1, p.2.2.1, f.getD p.1 0, p.2.2.2 % 2 ^ 32)

/-- The grade in effect lies in the verified envelope of a plan (R374). -/
def gradeVerified (s : State) (l : Loaded) : Bool := decide (l.gradeFast ≤ s.avsDev.grade ∧ s.avsDev.grade ≤ l.gradeSlow)

/-- The comparison of one cluster at the start of COPPICE, with whether a counter differs (R374). -/
def compareCluster (s : State) (h c : Nat) : State × Bool :=
  let i := instAt s h
  let k := clusterAt s c
  let pg := pgClu c 5
  let setCnts (t : State) (a b : Nat) : State :=
    modHdr t pg fun x => { x with cnt0 := BitVec.ofNat 32 a, cnt1 := BitVec.ofNat 32 b }
  let skipped (t : State) : State × Bool :=
    (modCluster (setCnts (modHdr t pg fun x => { x with cnt3 := x.cnt3 + 1 }) 0 0) c fun k =>
      { k with cnt := { k.cnt with result := 0, grade := s.avsDev.grade } }, false)
  match i.plan with
  | none => skipped s
  | some l =>
    if discarded i ∨ !(gradeVerified s l) then skipped s
    else
      let all := matchedCounters k
      let bad := mismatches all ((figuresOf l.plan (localId i c) s.avsDev.grade).getD [])
      let s1 := setCnts (modHdr s pg fun x => { x with cnt2 := x.cnt2 + 1 }) all.length bad.length
      match bad with
      | [] =>
        (modCluster s1 c fun k => { k with cnt := { k.cnt with result := 1, grade := s.avsDev.grade } }, false)
      | m :: _ =>
        (modCluster s1 c fun k => { k with cnt := { k.cnt with
            result := 2, grade := s.avsDev.grade, firstType := m.1, firstOffset := m.2.1
            expected := BitVec.ofNat 32 m.2.2.1, actual := BitVec.ofNat 32 m.2.2.2
            divTicks := k.cnt.divTicks + 1 } }, true)

/-- A divergence (R376) is logged with the cluster that it names, and discards the hedge's tick. -/
def diverge (s : State) (h c code srcType : Nat) : State :=
  divergeFault (logErr s { sev := .replay, srcType := srcType, srcInst := c, code := code, inst := h,
                           detail := clusterDetail c (pcol s c) }) h

/-- At the start of COPPICE every cluster of a RUNNING hedge compares its counters (R374). A difference, an ILLEGAL command
(R375) or a queue left with an entry (R182) diverges; the log names the lowest local id of each cause (R376, codes 0x4001,
0x4003 and 0x4004). -/
def compareHedge (s : State) (h : Nat) : State :=
  let i := instAt s h
  let r := (List.range (i.w * i.h)).foldl (fun (t : State × List Nat) loc =>
    let x := compareCluster t.1 h (globalId i loc)
    (x.1, if x.2 then t.2 ++ [globalId i loc] else t.2)) (s, [])
  if discarded i then r.1
  else
    let s1 := match r.2 with | c :: _ => diverge r.1 h c 0x4001 0x45 | [] => r.1
    let s2 := match (clustersOf i).find? fun c => (clusterAt s c).illegal.isSome with
      | some c => diverge s1 h c 0x4003 (((clusterAt s c).illegal.map (·.1)).getD 0x41)
      | none => s1
    match (clustersOf i).find? fun c => (clusterAt s c).qleft.isSome with
    | some c => diverge s2 h c 0x4004 0x42
    | none => s2

end Sys2Proof.Machine
end

