-- ==== Sys2Proof/Machine/Sensors.lean ====
section
/-! DEFINITION. Machine/Sensors.lean: sensor stream ingest (14_sensors.md): binding, matching, policing, reassembly, the frame
ring and its publication at OPEN. A packet's payload waits for the writer's slots, and then for port-spine slots (R339). -/

namespace Sys2Proof.Machine

/-- The page of a sensor channel (R469). -/
def pgSns (c : Nat) : Nat := pgPort (c / 4) (5 + c % 4)

/-- The binding that a SENSOR_BIND descriptor asks for (R352). -/
def bindOf (d : BitVec 512) : Bind :=
  let w := dField d 8 4
  let u := dField d 12 4
  { unbind := bit w 4, framing := bit w 5, partialPol := bit w 6, ipv6 := bit w 7, vlanEn := bit w 8,
    port := BitVec.ofNat 2 (bits w 10 9), subport := BitVec.ofNat 2 (bits w 12 11), vid := BitVec.ofNat 12 (bits w 24 13),
    udpPort := BitVec.ofNat 16 u, rate := bits u 23 16, ftimeout := bits (dField d 16 4) 15 0,
    slotsLog2 := bits (dField d 16 4) 19 16, slotLen := bits (dField d 20 4) 18 0, src := BitVec.ofNat 128 (dField d 24 16),
    ringBase := BitVec.ofNat 64 (dField d 40 8), statusLine := BitVec.ofNat 64 (dField d 48 8),
    consLine := BitVec.ofNat 64 (dField d 56 8) }

/-- The binding a channel has or will have. -/
def bindInForce (x : Sns) : Option Bind :=
  match x.staged with
  | some (b, _) => if b.unbind then none else some b
  | none => if x.bound then some x.bind else none

/-- Two bindings match the same packets (R328). -/
def sameMatch (a b : Bind) : Bool :=
  a.port == b.port && a.subport == b.subport && a.udpPort == b.udpPort && a.src == b.src && a.ipv6 == b.ipv6 &&
    a.vlanEn == b.vlanEn && (a.vid == b.vid || !a.vlanEn)

/-- The sum of RATE of the other channels of a die, over all owners or over one (R330). -/
def rateSum (s : State) (die c : Nat) (p : Nat → Bool) : Nat :=
  ((List.range 4).map fun j =>
    let x := snsAt s (die * 4 + j)
    if die * 4 + j = c ∨ !(p x.owner) then 0 else ((bindInForce x).map (·.rate)).getD 0).sum

/-- Writer slots that a RATE in 0.1 Gb/s needs: 10.24 for each 1 Gb/s, rounded up (R330). -/
def writerSlots (rate : Nat) : Nat := (rate * 1024 + 999) / 1000

/-- SENSOR_BIND is refused (R326, R328, R330): not allotted, a reserved port, a duplicate match, rates or writer slots
exceeded, a field outside its limits, or lines outside plain segments and windows. -/
def bindRefused (s : State) (id c : Nat) (b : Bind) : Bool :=
  let x := snsAt s c
  let i := instAt s id
  decide (id = 0 ∨ x.owner ≠ id) ||
  (!b.unbind &&
    (b.udpPort == (ktpAt s b.port.toNat).udpPort || b.udpPort == 319 || b.udpPort == 320 ||
     (List.range 16).any (fun k => k != c && ((bindInForce (snsAt s k)).map (sameMatch b) == some true)) ||
     decide (1000 < rateSum s (c / 4) c (fun _ => true) + b.rate) ||
     decide (ownedSlots (calAt s (92 + c / 4)).table id < writerSlots (rateSum s (c / 4) c (· == id) + b.rate)) ||
     decide (b.rate < 1 ∨ 250 < b.rate ∨ b.slotLen < 2 ∨ 262145 < b.slotLen ∨ b.slotsLog2 < 1 ∨ 12 < b.slotsLog2 ∨
       b.ftimeout < 1 ∨ b.ringBase.toNat % 64 ≠ 0) ||
     !(plainRange i b.ringBase.toNat (2 ^ b.slotsLog2 * b.slotLen * 64)) ||
     !(plainRange i b.statusLine.toNat 64) || (findWin i b.consLine.toNat).isNone))

/-- SENSOR_BIND is checked, and waits for the boundary or is refused with REFUSED_BIND (R326–R330). -/
def execSensorBind (r : RingId) (s : State) : Result :=
  .next <| match nextDesc s r.val 8 with
    | none => s
    | some d =>
      let id := (ringAt s r.val).owner
      let c := bits (dField d.desc 8 4) 3 0
      let b := bindOf d.desc
      let s1 := beginDesc s r.val d.seq
      if bindRefused s id c b then finishDesc s1 r.val d.seq 0x09 0
      else modSns s1 c fun x => { x with staged := some (b, r.val, d.seq) }

/-! ### Frames -/

/-- Frame slots of a ring. -/
def slotCount (b : Bind) : Nat := 2 ^ b.slotsLog2

/-- Bytes of payload that a slot holds (R333). -/
def slotCap (b : Bind) : Nat := b.slotLen * 64 - 64

/-- The segment-virtual address of the slot of frame index `i` (R336). -/
def slotVa (b : Bind) (i : Word) : Nat := b.ringBase.toNat + i.toNat % slotCount b * b.slotLen * 64

/-- The bytes of [lo, hi) that a list of received ranges does not hold. -/
def freshBytes (rs : List (Nat × Nat)) (lo hi : Nat) : Nat :=
  ((List.range (hi - lo)).filter (fun k => !(rs.any fun r => decide (r.1 ≤ lo + k ∧ lo + k < r.1 + r.2)))).length

/-- The bytes received, duplicates counted once (R332). -/
def receivedBytes : List (Nat × Nat) → Nat
  | [] => 0
  | r :: rs => freshBytes rs r.1 (r.1 + r.2) + receivedBytes rs

/-- The lowest offset not received: LENGTH when the frame is complete (FIRST_GAP). -/
def firstGap : Nat → List (Nat × Nat) → Nat → Nat
  | 0, _, at_ => at_
  | n + 1, rs, at_ =>
    match rs.find? (fun r => decide (r.1 ≤ at_ ∧ at_ < r.1 + r.2)) with
    | some r => firstGap n rs (r.1 + r.2)
    | none => at_

/-- The frame header (Table — Frame header), `ns` into the tick in which the frame is accepted; the device writes it last (R336). -/
def frameHeader (s : State) (c : Nat) (x : Sns) (idx : Word) (f : OpenFrame) (ns : Nat) : List Byte :=
  let rec_ := receivedBytes f.ranges
  leBytes 8 f.ptpNs.toNat ++ leBytes 8 f.devTick.toNat ++ leBytes 4 f.lag.toNat ++ leBytes 4 f.offsetNs.toNat ++
    leBytes 8 s.tck.devTick.toNat ++ leBytes 4 (instAt s x.owner).lag.toNat ++ leBytes 4 ns ++
    leBytes 4 idx.toNat ++ leBytes 4 f.frameNo.toNat ++ leBytes 4 f.total ++ leBytes 4 rec_ ++
    leBytes 4 (firstGap f.ranges.length f.ranges 0) ++ leBytes 2 (Nat.min f.packets 65535) ++ [f.flags] ++
    leBytes 1 c

/-- A delivery of a channel. -/
def ofChannel (c : Nat) (d : Delivery) : Bool :=
  match d.what with | .sensor k _ => k == c | .header k _ => k == c | _ => false

/-- A part of the payload of frame `idx` of a channel. -/
def ofFrame (c : Nat) (idx : Word) (d : Delivery) : Bool := match d.what with | .sensor k i => k == c && i == idx | _ => false

/-- The writer calendar of a channel's port die. -/
def writerCal (c : Nat) : Nat := 92 + c / 4

/-- A delivery waits for the writer slots of its channel's owner (R339). -/
def awaitWriter (s : State) (c : Nat) (d : Delivery) : State :=
  enqueue s (writerCal c) { owner := d.inst, kind := .deliver d.id d.data.length, left := d.data.length, planned := false }

/-- Data of a channel is on its way to memory. -/
def newDelivery (s : State) (c va : Nat) (data : List Byte) (what : Arrival) : Delivery :=
  { id := s.nextXfer, inst := (snsAt s c).owner, va := va, data := data, written := 0, moved := 0, what := what }

/-- The device writes data of a channel from the channel's own port die (R339). -/
def stageWrite (s : State) (c va : Nat) (data : List Byte) (what : Arrival) : State :=
  let d := newDelivery s c va data what
  awaitWriter { s with deliveries := s.deliveries ++ [d], nextXfer := s.nextXfer + 1 } c d

/-- A packet's data of a channel that is bound to a port of another port die first waits for management slots of the port spine
(R329); of which entry the rule does not say, so that is free (entry 62). -/
def stagePacket (s : State) (c va : Nat) (data : List Byte) (what : Arrival) : State :=
  if (snsAt s c).bind.port.toNat = c / 4 then stageWrite s c va data what
  else
    let d := newDelivery s c va data what
    enqueue (burn { s with deliveries := s.deliveries ++ [d], nextXfer := s.nextXfer + 1 } 1)
      (calFirst 2 + Config.freeNat s.fresh % 16) { owner := 0, kind := .relay d.id, left := data.length, planned := false }

/-- Frames that have closed are accepted in that order, each when its whole payload is in memory; its header follows (R336, R337). -/
def acceptFrames (c ns : Nat) : Nat → State → State
  | 0, s => s
  | k + 1, s =>
    let x := snsAt s c
    match x.closing with
    | [] => s
    | (idx, f) :: rest =>
      if s.deliveries.any (ofFrame c idx) then s
      else
        let s1 := modSns s c fun x => { x with closing := rest, accepted := idx + 1 }
        acceptFrames c ns k (stageWrite s1 c (slotVa x.bind idx) (frameHeader s c x idx f ns) (.header c idx))

/-- A part of a frame of channel `c` has reached memory, or a frame has closed, `ns` into the tick. -/
def acceptReady (s : State) (c ns : Nat) : State := acceptFrames c ns (snsAt s c).closing.length s

/-- Close the open frame of channel `c` with extra flags (R332, R334): a complete frame, or a partial one under PARTIAL = 1,
takes its index; a partial one under PARTIAL = 0 is discarded and counted. -/
def closeFrame (s : State) (c : Nat) (extra : BitVec 8) (ns : Nat) : State :=
  let x := snsAt s c
  match x.openF with
  | none => s
  | some f =>
    let complete := decide (receivedBytes f.ranges = f.total)
    if complete ∨ x.bind.partialPol then
      let g := { f with flags := f.flags ||| (if complete then 0 else extra ||| 1) }
      acceptReady (modSns s c fun x => { x with
        openF := none, nextIdx := x.nextIdx + 1, closing := x.closing ++ [(x.nextIdx, g)] }) c ns
    else
      bump (modSns (dropDeliveries s (ofFrame c x.nextIdx)) c fun x => { x with openF := none, drops := x.drops + 1 }) (pgSns c) 2

/-- Frame number, offset, total and data of a packet under its channel's framing (R331). -/
def ingest (b : Bind) (p : List Byte) : Option (Word × Nat × Nat × List Byte) :=
  if b.framing then
    if p.length < 12 then none
    else some (BitVec.ofNat 32 (beField p 0 4), beField p 4 4, beField p 8 4, p.drop 12)
  else some (0, 0, p.length, p)

/-- The bucket at a PTP time: it fills at RATE to its depth of 256 KiB (R335). RATE × 0.1 Gb/s is RATE/80 bytes a ns. -/
def bucketNow (x : Sns) (now : Nat) : Nat := Nat.min 262144 (x.bucket + (now - x.bucketAt) * x.bind.rate / 80)

/-- A received frame is a sensor packet that the channel matches, on its port. -/
def isFor (s : State) (x : Sns) (n : Nat) : FrameBody → Bool
  | .sensor p => snsMatch s x p && p.port.val == n
  | _ => false

/-- Reserve the next slot for a frame's first packet, or drop the frame whole and count it (R332, R333). -/
def openFrame (s : State) (c : Nat) (no : Word) (total : Nat) (p : SensorPkt) : State :=
  let x := snsAt s c
  if slotCap x.bind < total ∨ (x.nextIdx - x.cons).toNat = slotCount x.bind then
    bump (modSns s c fun x => { x with dropping := some no, drops := x.drops + 1 }) (pgSns c) 1
  else modSns s c fun x => { x with
    dropping := none
    openF := some {
      frameNo := no, total := total, ranges := [], packets := 0, flags := if unlockedNow s then 8 else 0,
      ptpNs := p.ptpNs, devTick := s.tck.devTick, lag := (instAt s x.owner).lag, offsetNs := p.offsetNs } }

/-- A packet's data goes toward its place in the frame slot; the frame closes when it is complete (R331, R332, R336). Data that would
pass TOTAL is not taken. -/
def addData (s : State) (c off : Nat) (data : List Byte) (p : SensorPkt) : State :=
  let x := snsAt s c
  match x.openF with
  | none => s
  | some f =>
    if f.total < off + data.length then s
    else
      let g := { f with ranges := (off, data.length) :: f.ranges, packets := f.packets + 1 }
      let s1 := modSns s c fun x => { x with openF := some g }
      let s2 := if data = [] then s1 else stagePacket s1 c (slotVa x.bind x.nextIdx + 64 + off) data (.sensor c x.nextIdx)
      if receivedBytes g.ranges = g.total then closeFrame s2 c 0 p.offsetNs.toNat else s2

/-- Bytes in the channel's staging buffer: received and not yet written (R335). -/
def stagedBytes (s : State) (c : Nat) : Nat :=
  (s.deliveries.map fun d => match d.what with | .sensor k _ => if k = c then d.data.length - d.written else 0 | _ => 0).sum

/-- A packet that passed the policer (R331–R334): older frame numbers are dropped; a newer one closes the open frame as
SUPERSEDED and opens its own. -/
def takePacket (s : State) (c : Nat) (p : SensorPkt) : State :=
  let x := snsAt s c
  match ingest x.bind p.payload with
  | none => s
  | some (no, off, total, data) =>
    match x.openF with
    | some f =>
      if x.bind.framing ∧ no = f.frameNo then addData s c off data p
      else if x.bind.framing ∧ psnBefore no f.frameNo then bump s (pgSns c) 5
      else addData (openFrame (closeFrame s c 0x10 p.offsetNs.toNat) c no total p) c off data p
    | none =>
      if x.bind.framing ∧ x.dropping = some no then s
      else addData (openFrame s c no total p) c off data p

/-- SENSOR_PACKET_RECEIVE: a matched packet is policed at RATE, reassembled into its frame slot and may close the open frame
(R328–R335). -/
def execSensorPacketReceive (ch : Fin 16) (s : State) : Result :=
  .next <|
    let x := snsAt s ch.val
    let n := x.bind.port.toNat
    match takeFrame s n (isFor s x n) with
    | some (.sensor p, t) =>
      let have_ := bucketNow x p.ptpNs.toNat
      if have_ < p.payload.length ∨ 262144 < stagedBytes s ch.val + p.payload.length then
        bump (modSns t ch.val fun x => { x with
          bucket := have_, bucketAt := p.ptpNs.toNat, policed := x.policed + 1
          openF := x.openF.map (fun f => { f with flags := f.flags ||| 4 }) }) (pgSns ch.val) 3
      else
        takePacket (modSns t ch.val fun x => { x with bucket := have_ - p.payload.length, bucketAt := p.ptpNs.toNat })
          ch.val p
    | _ => s

/-- SENSOR_FRAME_TIMEOUT: FTIMEOUT µs after its first packet the open frame closes with TIMEOUT (R332). -/
def execSensorFrameTimeout (ch : Fin 16) (offsetNs : Word) (s : State) : Result :=
  .next (closeFrame s ch.val 0x02 offsetNs.toNat)

/-! ### At a boundary and at OPEN -/

/-- A binding applies; the previous one closes its open frame under its partial-frame policy (R327), and what of it has not been
published goes with it (entry 62). -/
def applyBind (s : State) (c : Nat) : State :=
  match (snsAt s c).staged with
  | none => s
  | some (b, r, seq) =>
    let s1 := closeFrame s c 0 0
    let s2 := modSns (dropDeliveries s1 (ofChannel c)) c fun x => { x with
      staged := none, closing := [], accepted := 0, bound := !b.unbind, bind := if b.unbind then { x.bind with unbind := true } else b
      prod := 0, cons := 0, nextIdx := 0, dropping := none, bucket := 262144, bucketAt := 0 }
    finishDesc (touch s2 (pgSns c)) r seq 0 0

/-- Unbind a channel of a resetting instance and discard its open frame (R112). -/
def unbindChannel (s : State) (c : Nat) : State :=
  modSns (dropDeliveries s (ofChannel c)) c fun x => { ({} : Sns) with owner := x.owner }

/-- The status line (Table — Status line). -/
def statusBytes (s : State) (x : Sns) : List Byte :=
  let up := (ethAt s x.bind.port.toNat).up.getLsbD (if (ethAt s x.bind.port.toNat).modeNow = 1 then x.bind.subport.toNat else 0)
  leBytes 4 x.prod.toNat ++ leBytes 4 x.cons.toNat ++ leBytes 8 s.tck.devTick.toNat ++ leBytes 4 x.drops.toNat ++
    leBytes 4 x.policed.toNat ++ leBytes 1 (b2n x.bound + 2 * b2n (!up)) ++ leBytes 39 0

/-- The headers of frames accepted by t0 are in memory before these are published (R336, R337; entry 62). -/
def flushHeaders (s : State) (c : Nat) : State :=
  let isHeader (d : Delivery) : Bool := match d.what with | .header k _ => k == c | _ => false
  (s.deliveries.filter isHeader).foldl (fun t d => vaWrite t d.inst d.va d.data) (dropDeliveries s isHeader)

/-- At OPEN a bound channel reads the committed consumer index, frees the slots below it, writes its status line and
publishes its accepted frames (R337, R338). An index beyond what is published is ignored and counted. -/
def publishChannel (s : State) (c : Nat) : State :=
  if !(snsAt s c).bound then s
  else
    let s0 := flushHeaders s c
    let x := snsAt s0 c
    let n := (x.accepted - x.prod).toNat
    let s1 := modSns s0 c fun x => { x with prod := x.accepted }
    let idx : Word := BitVec.ofNat 32 (leNat (vaRead s (instAt s x.owner) x.bind.consLine.toNat 4))
    let ok := decide ((idx - x.cons).toNat ≤ (x.accepted - x.cons).toNat)
    let s2 := if ok then modSns s1 c fun x => { x with cons := idx } else bump s1 (pgSns c) 4
    let s3 := vaWrite s2 x.owner x.bind.statusLine.toNat (statusBytes s2 (snsAt s2 c))
    touch (bumpBy s3 (pgSns c) 0 n) (pgSns c)

def publishSensors (s : State) : State := (List.range 16).foldl publishChannel s

/-! ### Deliveries (R305, R339) -/

/-- A delivery with this id is replaced. -/
def modDelivery (s : State) (id : Nat) (f : Delivery → Delivery) : State :=
  { s with deliveries := s.deliveries.map fun d => if d.id = id then f d else d }

/-- A delivery is in memory, `ns` into the tick: a packet is counted, a frame's payload may be whole, KEEP_STS says loaded. -/
def endDelivery (s : State) (ns : Nat) (d : Delivery) : State :=
  let t : State := { s with deliveries := s.deliveries.filter fun e => e.id != d.id }
  match d.what with
  | .kt n _ p => pfcAll (countArrival t d.inst ns p) n
  | .sensor c _ => acceptReady t c ns
  | .header _ _ => t
  | .keep => modInst t d.inst fun i => { i with keepSts := 2 }

/-- A relayed packet is in the staging buffer of its channel, and waits for the writer (R329, R339). -/
def endRelay (s : State) (id : Nat) : State :=
  match s.deliveries.find? (fun d => d.id == id) with
  | none => s
  | some d => match d.what with
    | .sensor c _ => awaitWriter s c d
    | _ => s

/-- `n` of the `left` bytes of a delivery that wait up to byte `stop` pass the unit of calendar `cal`, `ns` into the tick: the sensor
writer, then the port spine into memory. -/
def moveDelivery (s : State) (id cal stop left n ns : Nat) : State :=
  match s.deliveries.find? (fun d => d.id == id) with
  | none => s
  | some d =>
    let k := stop - left
    if calClass cal = 6 then deliverStage (modDelivery s id fun d => { d with written := d.written + n }) d k n
    else
      let s1 := vaWrite (modDelivery s id fun d => { d with moved := d.moved + n }) d.inst (d.va + k) ((d.data.drop k).take n)
      if d.data.length ≤ d.moved + n then endDelivery s1 ns d else s1

end Sys2Proof.Machine
end

