-- ==== Sys2Proof/Machine/Instances.lean ====
section
/-! DEFINITION. Machine/Instances.lean: the life of an instance (04_instances.md): pending state and admission, PLAN_LOAD, RUN
and STOP, forming, topiary and the reset sequence, with what a boundary applies of each. -/

namespace Sys2Proof.Machine

/-! ### Pending state (R92–R94) -/

/-- Table — Descriptor effect by pending state: the state after a descriptor, none where it is refused. -/
def afterOp (st : IState) : Staged → Option IState
  | .loaded => match st with | .formed => some .loaded | .loaded => some .loaded | _ => none
  | .run => match st with | .loaded => some .running | .held => some .running | _ => none
  | .stop => match st with
    | .formed => some .formed | .loaded => some .loaded | .running => some .loaded | .held => some .loaded | _ => none
  | .form _ => match st with | .empty => some .formed | _ => none
  | .reshape _ => match st with
    | .formed => some .topiary | .loaded => some .topiary | .running => some .topiary | .held => some .topiary | _ => none

/-- The state at the next boundary before any staged change: topiary ends there (R102, R106, R107). -/
def baseState (i : Inst) : IState :=
  if i.st = .topiary then (if (i.reshape.map (·.keepPlan)).getD false then i.back else .formed) else i.st

/-- Staged changes in the order of application: management's first, then the instance's (R92, R93). -/
def inOrder (l : List StagedOp) : List StagedOp := l.filter (·.mgmt) ++ l.filter (fun o => !o.mgmt)

/-- The state an instance will hold once every descriptor accepted so far has applied. -/
def pendingState (s : State) (id : Nat) : IState :=
  ((inOrder s.staged).filter (fun o => o.inst == id)).foldl (fun st o => (afterOp st o.op).getD st) (baseState (instAt s id))

/-- A descriptor is accepted and waits for its boundary (R92, R351). -/
def stage (s : State) (id r seq : Nat) (mgmt : Bool) (op : Staged) : State :=
  { beginDesc s r seq with
    staged := s.staged ++ [{ inst := id, mgmt := mgmt, op := op, ring := r, seq := seq }] }

/-- A descriptor begins and completes with a status and a result. -/
def refuse (s : State) (r seq status result : Nat) : State := finishDesc (beginDesc s r seq) r seq status result

/-! ### Admission (R60, R61, R68, R69, R82, R85, R86, R108, R109, R114, R256, R343, R363, R396, R407, R432) -/

/-- The rectangles, slices, budgets and envelopes that another instance holds or will hold. -/
structure Claim where
  inst : Nat
  x0 : Nat
  y0 : Nat
  w : Nat
  h : Nat
  slices : BitVec 256
  fast : Nat
  slow : Nat

def claimOf (id : Nat) (q : Shape) : Claim :=
  { inst := id, x0 := q.x0, y0 := q.y0, w := q.w, h := q.h, slices := q.slices, fast := q.gradeFast, slow := q.gradeSlow }

/-- The shape that a staged change gives. -/
def opShape : Staged → Option Shape
  | .form q => some q
  | .reshape q => some q
  | _ => none

/-- What the latest accepted request of an instance that has yet to take effect asks for. -/
def pendingShape (s : State) (id : Nat) : Option Shape :=
  (s.staged.filterMap fun o => if o.inst = id then opShape o.op else none).getLast?.or (instAt s id).reshape

/-- What an instance claims, every accepted request applied (R86). -/
def claimNow (s : State) (id : Nat) : Claim :=
  let i := instAt s id
  match pendingShape s id with
  | some q => claimOf id q
  | none => { inst := id, x0 := i.x0, y0 := i.y0, w := i.w, h := i.h, slices := i.slices, fast := i.gradeFast, slow := i.gradeSlow }

/-- Everything claimed by instances: a request sees every earlier one as applied (R86). -/
def claims (s : State) : List Claim := (instIds.map (claimNow s)).filter fun e => e.w != 0

/-- The budget of an instance as the latest accepted request has it. -/
def budgetOf (s : State) (id : Nat) : Nat :=
  match pendingShape s id with
  | some q => q.budget
  | none => (instAt s id).budget

/-- Two rectangles share a cluster. -/
def rectsMeet (ax ay aw ah bx by_ bw bh : Nat) : Bool :=
  decide (ax < bx + bw ∧ bx < ax + aw ∧ ay < by_ + bh ∧ by_ < ay + ah)

/-- Geometry (R60), with R109 and R264: no segment on the HBM of a die the rectangle does not cover. -/
def geometryBad (s : State) (id : Nat) (q : Shape) : Bool :=
  decide (q.w < 1 ∨ 32 < q.w ∨ q.h < 1 ∨ 16 < q.h ∨ 32 < q.x0 + q.w ∨ 16 < q.y0 + q.h) ||
    strayStack (instAt s id) fun d => (rectClusters q.x0 q.y0 q.w q.h).any fun c => decide (dieOf c = d)

/-- The slices fail R68 or R69. -/
def slicesBad (s : State) (id : Nat) (q : Shape) : Bool :=
  let cs := rectClusters q.x0 q.y0 q.w q.h
  (List.range 256).any (fun k => q.slices.getLsbD k &&
    (!(cs.any fun c => decide (dieOf c = k / 32)) ||
      (claims s).any fun e => e.inst != id && e.slices.getLsbD k)) ||
  cs.any fun c => !((List.range 16).any fun k => q.slices.getLsbD (dieOf c * 32 + (if eastHalf c then 0 else 16) + k))

/-- Slots that either table of a calendar gives a code other than unowned. -/
def codedSlots (k : Cal) : List Nat := (k.table.map (·.1)) ++ (k.shadow.map (·.1))

/-- An instance other than `id` keeps a slot of calendar `c` for zeroing its segments (R114). -/
def keepsSlot (s : State) (c id o : Nat) : Bool :=
  o != id && calClass c == 1 && decide (1 ≤ o ∧ o ≤ 64) && zeroingOn s o (calUnit c)

/-- The table that a calendar will have when the reshape of an instance ends (R108): a reserved code is not applied, nor is a slot
taken from an instance that still zeroes its segments (R114). -/
def reshapedTable (s : State) (c id : Nat) (k : Cal) : FMap Nat :=
  (codedSlots k).foldl (fun m n =>
    if (ownerIn k.table n = id ∨ ownerIn k.shadow n = id) ∧ !(reservedCode (ownerIn k.shadow n)) ∧
        !(keepsSlot s c id (ownerIn k.table n))
    then mset m 0xFF n (ownerIn k.shadow n) else m) k.table

/-- The instances whose accepted reshapes have yet to take effect. -/
def reshaping (s : State) : List Nat :=
  instIds.filter fun id => (instAt s id).reshape.isSome ||
    s.staged.any fun o => o.inst == id && match o.op with | .reshape _ => true | _ => false

/-- A calendar as the accepted reshapes will leave it (R86). -/
def pendingCal (s : State) (c : Nat) (k : Cal) : Cal :=
  (reshaping s).foldl (fun k id => { k with table := reshapedTable s c id k }) k

/-- A calendar whose shadow gives a slot of the reshaped instance to, or takes one from, another RUNNING instance, takes one from an
instance that still zeroes its segments (R114), or holds a reserved code in a slot of its own (R108). -/
def reshapeConflict (s : State) (c id : Nat) (k : Cal) : Bool :=
  (codedSlots k).any fun n =>
    let a := ownerIn k.table n
    let b := ownerIn k.shadow n
    let run (o : Nat) : Bool := o != id && decide (1 ≤ o ∧ o ≤ 64) && (instAt s o).st == .running
    (decide (a ≠ b ∧ (a = id ∨ b = id)) && (run a || run b || keepsSlot s c id a)) || (decide (a = id) && reservedCode b)

/-- A calendar slot of the instance changes (R107). -/
def slotsChange (id : Nat) (k : Cal) : Bool :=
  (codedSlots k).any fun n =>
    decide (ownerIn k.table n ≠ ownerIn k.shadow n ∧ (ownerIn k.table n = id ∨ ownerIn k.shadow n = id))

/-- The calendar that fails admission: for a form one whose stack is still being zeroed (R114) or that breaks R82 as it
stands; for a reshape one that breaks R82 or R108 as it will stand. Accepted reshapes count as applied (R86). -/
def calendarBad (s : State) (id : Nat) (re : Bool) : Option Nat :=
  if re then
    match admitCalendars s (fun c k => reshapedTable s c id (pendingCal s c k)) with
    | some c => some c
    | none => (s.cals.find? fun p => reshapeConflict s p.1 id (pendingCal s p.1 p.2)).map (·.1)
  else match (List.range 8).find? (zeroingOn s id) with
    | some d => some d
    | none => admitCalendars s fun c k => (pendingCal s c k).table

/-- The power check of R85. -/
def powerBad (s : State) (id : Nat) (q : Shape) : Bool :=
  decide (1100 < q.budget ∨
    s.calCtl.pwrCap < s.calCtl.pwrBase + ((instIds.filter (· != id)).map (budgetOf s)).sum + q.budget)

/-- AVS_GENV as written, which is in effect when a change accepted now applies (R394). -/
def genvWritten (s : State) : Nat × Nat := s.avsDev.genvStaged.getD (s.avsDev.genvFast, s.avsDev.genvSlow)

/-- The envelope is empty, or its intersection with AVS_GENV and every other hedge's is (R396). -/
def envelopeBad (s : State) (id : Nat) (q : Shape) : Bool :=
  let others := (claims s).filter fun e => e.inst != id
  let fast := others.foldl (fun m e => Nat.max m e.fast) (Nat.max q.gradeFast (genvWritten s).1)
  let slow := others.foldl (fun m e => Nat.min m e.slow) (Nat.min q.gradeSlow (genvWritten s).2)
  decide (q.gradeSlow < q.gradeFast ∨ slow < fast)

/-- KEEP_PLAN = 1 asks for a rectangle or slices other than those the instance has, every accepted request applied (R86, R107). -/
def keepsRect (e : Claim) (q : Shape) : Bool := decide (q.x0 = e.x0 ∧ q.y0 = e.y0 ∧ q.w = e.w ∧ q.h = e.h)

/-- The first check of R86 that fails: REASON, and the calendar for REASON 5. Checks run in the order of their codes. -/
def admission (s : State) (id : Nat) (q : Shape) (re : Bool) : Option (Nat × Nat) :=
  let i := instAt s id
  let e := claimNow s id
  let cs := rectClusters q.x0 q.y0 q.w q.h
  let keep := re && q.keepPlan
  if geometryBad s id q || (keep && !(keepsRect e q)) then some (1, 0)
  else if (claims s).any fun e => e.inst != id && rectsMeet q.x0 q.y0 q.w q.h e.x0 e.y0 e.w e.h then some (2, 0)
  else if cs.any fun c => !(clusterAt s c).avail then some (3, 0)
  else if slicesBad s id q || (keep && q.slices != e.slices) then some (4, 0)
  else match calendarBad s id re with
    | some c => some (5, c)
    | none =>
      match if keep then (s.cals.find? fun p => slotsChange id (pendingCal s p.1 p.2)).map (·.1) else none with
      | some c => some (5, c)
      | none =>
        if powerBad s id q then some (6, 0)
        else if envelopeBad s id q ||
            (keep && match i.plan with | some l => decide (l.gradeSlow < q.gradeSlow) | none => false) then some (7, 0)
        else if re then none
        else if s.ent.degraded then some (8, 0)
        else if !i.vfEnabled then some (9, 0)
        else if !s.pwr.holdOk && !s.pwr.noHoldOk then some (10, 0)
        else if !s.glb.ready then some (11, 0)
        else if tagsAllotted s (serving s) id = 0 then some (12, 0)
        else none

/-- Record a refusal in CAL_ADMIT (R86). -/
def recordRefusal (s : State) (a : Nat × Nat) : State :=
  touch (modCalCtl s fun k => { k with
    reason := a.1, cls := if a.1 = 5 then calClass a.2 else 0, unit := if a.1 = 5 then calUnit a.2 else 0 }) 8

/-- What HEDGE_FORM and HEDGE_RESHAPE ask for (R352). -/
def shapeOf (d : BitVec 512) : Shape :=
  { x0 := dField d 12 1, y0 := dField d 13 1, w := dField d 14 1, h := dField d 15 1
    slices := BitVec.ofNat 256 (dField d 16 32), borrow := bit (dField d 9 1) 0
    gradeFast := bits (dField d 9 1) 2 1, gradeSlow := bits (dField d 9 1) 4 3
    budget := bits (dField d 10 2) 10 0, keepPlan := bit (dField d 9 1) 5 }

/-! ### Descriptors (R94) -/

/-- HEDGE_FORM and HEDGE_RESHAPE: refused by state or by admission, or staged (R86, R92). -/
def shapeDesc (r t : Nat) (re : Bool) (s : State) : State :=
  match nextDesc s r t with
  | none => s
  | some d =>
    let id := dField d.desc 8 1
    let q := shapeOf d.desc
    let op : Staged := if re then .reshape q else .form q
    if id = 0 ∨ 64 < id ∨ (afterOp (pendingState s id) op).isNone then refuse s r d.seq 0x01 0
    else match admission s id q re with
      | some a => refuse (recordRefusal s a) r d.seq 0x02 a.1
      | none => stage s id r d.seq true op

/-- HEDGE_FORM (R96, R97). -/
def execHedgeForm (r : RingId) (s : State) : Result := .next (shapeDesc r.val 0x40 false s)

/-- HEDGE_RESHAPE (R102, R107–R109). -/
def execHedgeReshape (r : RingId) (s : State) : Result := .next (shapeDesc r.val 0x41 true s)

/-- The image's range lies where the instance may read it (R98, R263). -/
def imageReadable (i : Inst) (va len : Nat) : Bool :=
  decide (va + len ≤ 2 ^ 48) &&
    (List.range ((va % unit2M + len + unit2M - 1) / unit2M)).all fun u =>
      (planReadPhys i (Nat.max va ((va / unit2M + u) * unit2M))).isSome

/-- PLAN_LOAD: the device starts to read the image, through the instance's own calendar slots (R19, R98). A load in progress is
finished first. -/
def execPlanLoad (r : RingId) (p : Plan) (s : State) : Result :=
  .next <| match nextDesc s r.val 1 with
    | none => s
    | some d =>
      let id := (ringAt s r.val).owner
      let i := instAt s id
      let va := dField d.desc 8 8
      let len := dField d.desc 16 4
      if (afterOp (pendingState s id) .loaded).isNone then refuse s r.val d.seq 0x01 0
      else if !(imageReadable i va len) then refuse s r.val d.seq 0x04 0
      else if i.loading.isSome then s
      else
        let x := newXfer s .image id va len
        let s1 := addXfer (stage s id r.val d.seq false .loaded) x
        modInst (if len = 0 then s1 else readStage s1 x 0) id fun i => { i with loading := some (⟨p, 0, 0, 0⟩, r.val, d.seq, false) }

/-- The read of a plan image of the instance. -/
def imageOf (s : State) (id : Nat) : Option Transfer := s.xfers.find? fun x => x.inst == id && x.kind == .image

/-- The read of the instance's plan image is over. -/
def dropImage (s : State) (id : Nat) : State := match imageOf s id with | some x => dropXfer s x.id | none => s

/-- The load of a plan ends without it: its staged change goes and its descriptor completes. -/
def dropLoad (s : State) (id r seq status : Nat) : State :=
  finishDesc { modInst (dropImage s id) id (fun i => { i with loading := none }) with
    staged := s.staged.filter fun o => !(o.ring == r && o.seq == seq) } r seq status 0

/-- A plan with what its image states. -/
def loadedOf (p : Plan) (img : List Byte) : Loaded :=
  { plan := p, periodUs := imgPeriod img, gradeFast := imgFast img, gradeSlow := imgSlow img }

/-- PLAN_LOAD_COMPLETE: the image has been read; it is refused with REFUSED_PLAN, or its plan is in the clusters and the
state becomes LOADED at the next boundary (R98, R367). -/
def execPlanLoadComplete (h : InstId) (s : State) : Result :=
  .next <|
    let i := instAt s h.val
    match i.loading, imageOf s h.val with
    | some (l, r, seq, false), some x =>
      if (i.st = .formed ∨ i.st = .loaded) ∧ x.moved = x.len then
        if 67108864 < x.len ∨ planRefused s h.val l.plan x.data x.len then dropLoad s h.val r seq 0x08
        else
          let l := loadedOf l.plan x.data
          modInst (installPlan (dropImage s h.val) h.val l) h.val fun i => { i with loading := some (l, r, seq, true) }
      else s
    | _, _ => s

/-- The hedge's rectangle contains an unavailable cluster (R15, R100). -/
def hasUnavailable (s : State) (i : Inst) : Bool := (clustersOf i).any fun c => !(clusterAt s c).avail

/-- RUN: refused by state or with UNAVAILABLE, or staged (R94, R100). -/
def execRun (r : RingId) (s : State) : Result :=
  .next <| match nextDesc s r.val 2 with
    | none => s
    | some d =>
      let id := (ringAt s r.val).owner
      if (afterOp (pendingState s id) .run).isNone then refuse s r.val d.seq 0x01 0
      else if hasUnavailable s (instAt s id) then refuse s r.val d.seq 0x0A 0
      else stage s id r.val d.seq false .run

/-- STOP: refused by state, or staged (R94, R99). -/
def execStop (r : RingId) (s : State) : Result :=
  .next <| match nextDesc s r.val 3 with
    | none => s
    | some d =>
      let id := (ringAt s r.val).owner
      if (afterOp (pendingState s id) .stop).isNone then refuse s r.val d.seq 0x01 0
      else stage s id r.val d.seq false .stop

/-! ### Walls and cluster ownership (R64, R95, R97, R104) -/

/-- The ports of a cluster that its hedge's wall closes: N, E, S, W from bit 0 (R64). -/
def wallBits (i : Inst) (c : Nat) : BitVec 4 :=
  BitVec.ofNat 4 (b2n (decide (c / 32 = i.y0)) + 2 * b2n (decide (c % 32 + 1 = i.x0 + i.w)) +
    4 * b2n (decide (c / 32 + 1 = i.y0 + i.h)) + 8 * b2n (decide (c % 32 = i.x0)))

/-- The clusters of the instance's rectangle become the hedge's, with its walls (R64, R97). -/
def takeClusters (s : State) (id : Nat) : State :=
  (clustersOf (instAt s id)).foldl (fun t c => modCluster t c fun k =>
    { k with owner := id, dormant := false, closed := wallBits (instAt s id) c, xbrClosed := false }) s

/-- A cluster becomes free: everything 0 and every port closed, its pages at their reset values (R95). -/
def freeCluster (s : State) (c : Nat) : State :=
  let t := modCluster s c fun k =>
    { clearedCluster k with owner := 0, dormant := false, closed := 0xF, xbrClosed := true }
  { t with pgs := (List.range 6).foldl (fun m p => mset m {} (pgClu c p) {}) t.pgs }

/-- A cluster becomes dormant (R104). -/
def dormantCluster (s : State) (c : Nat) : State :=
  modCluster s c fun k => { k with dormant := true, closed := 0xF, xbrClosed := true }

/-- A hedge leaves RUNNING: every entry it holds is posted (R360), and its clusters stop. -/
def leaveRunning (before : IState) (s : State) (id : Nat) : State :=
  if before = .running ∧ (instAt s id).st ≠ .running then postOwner s id else s

/-! ### What a boundary applies (R92, R93, R97–R99, R102–R110) -/

/-- HEDGE_FORM takes effect (R97). -/
def applyForm (s : State) (id : Nat) (q : Shape) : State :=
  let s1 := modInst s id fun i => { i with
    st := .formed, x0 := q.x0, y0 := q.y0, w := q.w, h := q.h, slices := q.slices, borrow := q.borrow
    gradeFast := q.gradeFast, gradeSlow := q.gradeSlow, budget := q.budget, ran := false, lag := 0, consec := 0
    outcome := 0, redo := false }
  touch (takeClusters s1 id) (pgHdg id)

/-- Clusters in one rectangle and not in the other. -/
def rectsDiffer (i : Inst) (q : Shape) : List Nat :=
  (clustersOf i).filter (fun c => !(inRect q.x0 q.y0 q.w q.h c)) ++
    (rectClusters q.x0 q.y0 q.w q.h).filter (fun c => !(inHedge i c))

/-- Clear whole slices to 0 (R110, R112). -/
def clearSlices (s : State) (m : BitVec 256) : State :=
  ((List.range 256).filter fun k => m.getLsbD k).foldl (fun t k => memClear t (sliceBase k) unit2M) s

/-- B1 of topiary (R102, R103, R104, R106, R110): slices that are released are cleared during it. -/
def beginTopiary (s : State) (id : Nat) (q : Shape) (r seq : Nat) : State :=
  let i := instAt s id
  let s1 := clearSlices ((rectsDiffer i q).foldl dormantCluster s) (i.slices &&& ~~~q.slices)
  let s2 := if q.keepPlan then s1
    else (clustersOf i).foldl (fun t c => modCluster t c clearedCluster)
      (modInst s1 id fun i => { i with plan := none, pend := [] })
  let s3 := modInst s2 id fun j => { j with
    st := .topiary, back := i.st, reshape := some q, reshapeBy := some (r, seq), redo := q.keepPlan && i.redo }
  touch (leaveRunning i.st s3 id) (pgHdg id)

/-- The calendar entries of a reshaped instance take effect (R108): a reserved code is not applied, and is reported. -/
def reshapeCalendar (id : Nat) (s : State) (c : Nat) : State :=
  let k := calAt s c
  let t := setCal s c { k with table := reshapedTable s c id k }
  if (codedSlots k).any fun n =>
      decide (ownerIn k.table n = id ∨ ownerIn k.shadow n = id) && reservedCode (ownerIn k.shadow n)
  then pgErr t (pgCal c) 1 else t

/-- The slices of every instance but one. -/
def otherSlices (s : State) (id : Nat) : BitVec 256 :=
  s.insts.foldl (fun m p => if p.1 = id then m else m ||| p.2.slices) 0

/-- The new rectangle, walls, slices and calendar entries take effect (R102, R108, R110): leaving clusters are free and
released slices are cleared, but for those that a form accepted after the reshape has taken at B1 (R86). -/
def applyShape (s : State) (id : Nat) (q : Shape) : State :=
  let i := instAt s id
  let s1 := ((clustersOf i).filter fun c => !(inRect q.x0 q.y0 q.w q.h c) && decide (ownerOf s c = id)).foldl freeCluster s
  let s2 := clearSlices s1 (i.slices &&& ~~~q.slices &&& ~~~(otherSlices s id))
  let s3 := modInst s2 id fun i => { i with
    x0 := q.x0, y0 := q.y0, w := q.w, h := q.h, slices := q.slices
    gradeFast := q.gradeFast, gradeSlow := q.gradeSlow, budget := q.budget, reshape := none }
  (s3.cals.map (·.1)).foldl (reshapeCalendar id) (takeClusters s3 id)

/-- The lag on entering RUNNING: what was frozen, 0 the first time (R47, R48), or what makes the tick that was discarded as the hedge
left RUNNING the first it runs (R99, R103). -/
def entryLag (s : State) (i : Inst) : Word :=
  if i.redo then (s.tck.devTick - i.htick).setWidth 32 else if i.ran then i.lag else 0

/-- The hedge tick counter on entering RUNNING: the device tick counter less the lag (R47, R48). -/
def enterRunning (s : State) (i : Inst) : Inst :=
  let lag := entryLag s i
  { i with st := .running, ran := true, lag := lag, htick := s.tck.devTick - lag.setWidth 64, replaying := i.consec != 0, redo := false
           dFault := false, dMissed := false, dDiverged := false, committed := false, endMarker := false }

/-- B2 of topiary (R102, R106, R107): it ends in FORMED, or in the state before it. A hedge held at this boundary, or one whose
rectangle now contains an unavailable cluster, lands HELD. -/
def endTopiary (s : State) (id : Nat) : State :=
  let i := instAt s id
  match i.reshape with
  | none => s
  | some q =>
    let s1 := applyShape s id q
    let st := if q.keepPlan then i.back else .formed
    let cause := i.holdNext.orElse fun _ =>
      if hasUnavailable s1 (instAt s1 id) ∧ (st = .running ∨ !q.keepPlan) then some 6 else none
    let done (t : State) : State := match i.reshapeBy with
      | some (r, seq) => finishDesc (modInst t id fun j => { j with reshapeBy := none, holdNext := none }) r seq 0 0
      | none => t
    match cause with
    | some c => done (postEvent (modInst s1 id fun j => { j with st := .held }) id 1 c)
    | none =>
      done (modInst s1 id fun j => if st = .running then enterRunning s j else { j with st := st })

/-- A staged change takes effect, checked again against the state it meets (R93). -/
def applyOp (s : State) (o : StagedOp) : State :=
  let i := instAt s o.inst
  match afterOp i.st o.op, o.op with
  | none, .loaded => dropLoad s o.inst o.ring o.seq 0x01
  | none, _ => finishDesc s o.ring o.seq 0x01 0
  | some _, .form q => finishDesc (applyForm s o.inst q) o.ring o.seq 0 0
  | some _, .reshape q => beginTopiary s o.inst q o.ring o.seq
  | some _, .run =>
    if hasUnavailable s i then finishDesc s o.ring o.seq 0x0A 0
    else if i.plan.map (·.periodUs) ≠ some s.tck.period then finishDesc s o.ring o.seq 0x08 0
    else finishDesc (touch (modInst s o.inst fun i => { enterRunning s i with consec := 0, replaying := false })
      (pgHdg o.inst)) o.ring o.seq 0 0
  | some st, _ =>
    let s1 := modInst s o.inst fun i => { i with st := st, loading := if o.op = .loaded then none else i.loading }
    finishDesc (touch (leaveRunning i.st s1 o.inst) (pgHdg o.inst)) o.ring o.seq 0 0

/-- A staged change must wait: the load it needs, or one before it, is not complete (R98). -/
def opWaits (s : State) (o : StagedOp) : Bool :=
  !o.mgmt && match (instAt s o.inst).loading with | some (_, _, _, done) => !done | none => false

/-- Staged changes at a boundary: management's first, each in the order of acceptance (R92, R93). A load still in progress
holds the changes of its instance from there on; what was accepted before it applies. -/
def applyStaged (s : State) : State :=
  let ready (l : List StagedOp) : List StagedOp × List StagedOp :=
    l.foldl (fun (a : List StagedOp × List StagedOp) o =>
      let held := a.2.any (fun b => b.inst == o.inst) || (decide (o.op = .loaded) && opWaits s o)
      if held then (a.1, a.2 ++ [o]) else (a.1 ++ [o], a.2)) ([], [])
  let p := ready (s.staged.filter fun o => !o.mgmt)
  (s.staged.filter (·.mgmt) ++ p.1).foldl applyOp { s with staged := p.2 }

/-! ### Instance reset (R111–R115) -/

/-- The flows of an instance: port and flow. -/
def flowsOf (s : State) (id : Nat) : List (Nat × Nat) :=
  (List.range 4).flatMap fun n => ((List.range 64).filter fun f =>
    let v := flowView (ktpAt s n) f
    v.valid && v.localInst == id).map fun f => (n, f)

/-- Bytes of a transfer that the device holds and must now route to the discard sink (R112, R364). -/
def heldBytes (x : Transfer) : Nat := if x.kind = .dmaIn then x.pcie - x.moved else x.data.length - x.moved

/-- The host still owes the transfer what it reads (R112 step 3). -/
def hostOwes (x : Transfer) : Bool := x.kind == .dmaIn && decide (x.pcie < x.len)

/-- One transfer of a resetting instance ends: what the device holds of it goes to the discard sink. The tag of an outstanding host
read comes back with its return or its timeout alone (R112 steps 2 and 3, R363). -/
def dropTransfer (t : State) (x : Transfer) : State :=
  let t1 := if heldBytes x = 0 then t else toSink t (serving t) (heldBytes x)
  if hostOwes x then modXfer t1 x.id fun x => { x with dead := true }
  else if ofDesc x then giveTag (dropXfer t1 x.id) x.inst
  else dropXfer t1 x.id

/-- Data on its way to the memory of a resetting instance goes to the discard sink (R112 step 3). -/
def sinkDelivery (t : State) (d : Delivery) : State := toSink t (serving t) (d.data.length - d.moved)

/-- Drop the transfers and the deliveries of an instance (R112 steps 2 and 3). -/
def dropTransfers (s : State) (id : Nat) : State :=
  let s1 := (s.xfers.filter fun x => x.inst == id && !x.dead).foldl dropTransfer s
  dropDeliveries ((s1.deliveries.filter fun d => d.inst == id).foldl sinkDelivery s1) fun d => d.inst == id

/-- Drop the staged changes of an instance: management's complete REFUSED_STATE, its own go without a completion (R94). -/
def dropStaged (s : State) (id : Nat) : State :=
  (s.staged.filter fun o => o.inst == id && o.mgmt).foldl (fun t o => finishDesc t o.ring o.seq 0x01 0)
    { s with staged := s.staged.filter fun o => o.inst != id }

/-- What stays queued through a reset: register read completions, which belong to the function (R465), and what the host still returns,
which comes in the instance's PCIe slots (R112). -/
def staysQueued (s : State) (cal : Nat) : ItemKind → Bool
  | .readCpl .. => true
  | .dma id _ => calClass cal == 5 && s.xfers.any fun x => x.id == id && x.dead
  | _ => false

/-- Drop what the rings, calendars and ports hold for an instance (R112 steps 1 and 2). -/
def dropQueued (s : State) (id : Nat) : State :=
  { s with
    rings := mmap {} (fun _ x => if x.owner = id then { x with slots := [], fenced := false, cqWait := false } else x) s.rings
    cals := mmap {} (fun c k => { k with queue := k.queue.filter fun it => it.owner != id || staysQueued s c it.kind }) s.cals
    eth := mmap {} (fun _ e => { e with txq := e.txq.filter fun f => !(f.inst == id && decide (f.rank ≤ 3)) }) s.eth }

/-- The reset of an instance starts at t0 (R111, R112 steps 1–4 and 6). -/
def startReset (s : State) (id : Nat) (by_ : Option (Nat × Nat)) : State :=
  let s1 := dropQueued (dropTransfers (dropStaged s id) id) id
  let s2 := (List.range 16).foldl (fun t c => if (snsAt t c).owner = id then touch (unbindChannel t c) (pgSns c) else t) s1
  let s3 := dropPending (stopClusters s2 id) id
  let s4 := modInst s3 id fun i => { i with
    st := .resetting, resetStep := 1, resetBy := by_, loading := none, inputs := [], heldEntries := [], holdNext := none
    abortWait := flowsOf s id, committed := false, endMarker := false
    chanX := mmap {} (fun _ x => { x with unacked := [] }) i.chanX }
  pinSync s (touch ((flowsOf s id).foldl (fun t a => sendAbort t a.1 a.2) s4) (pgHdg id))

/-- INSTANCE_RESET: completes when the sequence ends; while RESETTING it has no effect (R94, R111). -/
def execInstanceReset (r : RingId) (s : State) : Result :=
  .next <| match nextDesc s r.val 0x42 with
    | none => s
    | some d =>
      let id := dField d.desc 8 1
      if id = 0 ∨ 64 < id then refuse s r.val d.seq 0x01 0
      else if (instAt s id).st = .resetting then refuse s r.val d.seq 0x0B 0
      else startReset (beginDesc s r.val d.seq) id (some (r.val, d.seq))

/-- The reset of an instance that is not already resetting. -/
def resetOnce (s : State) (id : Nat) : State := if (instAt s id).st = .resetting then s else startReset s id none

/-- VF_FLR (R111, R345). -/
def execVfFlr (h : InstId) (s : State) : Result := .next (if h.val = 0 then s else resetOnce s h.val)

/-- PF_FLR (R345): every instance is reset, and rings 0–3 are emptied. -/
def execPfFlr (s : State) : Result :=
  .next <|
    let s1 := instIds.foldl resetOnce s
    (List.range 4).foldl (fun t r => modRing t r fun x =>
      { x with enable := false, head := 0, tail := 0, snap := 0, slots := [], fenced := false, cqWait := false }) s1

/-- The valid segments of an instance on HBM stacks, in ascending index (R114). -/
def hbmSegments (i : Inst) : List Nat :=
  (List.range 64).filter fun n => (segView i n).valid && decide ((segView i n).target < 8)

/-- B1 of the reset sequence (R112 step 6, R114): a topiary in progress ends as staged, then the clusters are dormant and
cleared, with the slices, the mirrors in them and the tenant keep; zeroing begins. -/
def resetB1 (s : State) (id : Nat) : State :=
  let s0 := match (instAt s id).reshape, (instAt s id).reshapeBy with
    | some q, some (r, seq) =>
      finishDesc (modInst (applyShape s id q) id fun i => { i with plan := none, reshapeBy := none }) r seq 0 0
    | _, _ => s
  let i := instAt s0 id
  let s1 := (clustersOf i).foldl (fun t c => dormantCluster (modCluster t c clearedCluster) c) s0
  modInst (clearSlices s1 i.slices) id fun i => { i with
    resetStep := 2, keep := none, keepSts := 0, zeroing := hbmSegments i, zeroPos := []
    zeroRemain := ((hbmSegments i).map fun n => (segView i n).len).sum }

/-- B2 of the reset sequence: the clusters are free and the slices are released (R112 step 6). -/
def resetB2 (s : State) (id : Nat) : State :=
  modInst ((clustersOf (instAt s id)).foldl freeCluster s) id fun i => { i with
    resetStep := 3, slices := 0, x0 := 0, y0 := 0, w := 0, h := 0, plan := none, wins := [], sel := [] }

/-- The reset steps that a boundary takes. -/
def resetBoundary (s : State) (id : Nat) : State :=
  let i := instAt s id
  if i.st = .resetting ∧ i.resetStep = 1 then resetB1 s id
  else if i.st = .resetting ∧ i.resetStep = 2 then resetB2 s id
  else s

/-- The instance's flow keys are destroyed (R112 step 7, R325). -/
def destroyKeys (s : State) (id : Nat) : State :=
  (flowsOf s id).foldl (fun t a =>
    modKtp (modFlowX t a.1 a.2 fun x => { x with key0 := none, key1 := none, txctr := 0 }) a.1 fun k =>
      { k with flows := mmod k.flows 0 (a.2 * 12 + 9) fun w => w &&& 0xFFFFFFF9 }) s

/-- The rings of an instance are empty: ENABLE, HEAD, TAIL and SNAP 0, the rest of their configuration kept (R112). -/
def emptyRings (s : State) (id : Nat) : State :=
  { s with rings := mmap {} (fun _ x => if x.owner = id then
      { x with enable := false, head := 0, tail := 0, snap := 0, fenced := false, cqWait := false, slots := []
               irqDue := false } else x) s.rings }

/-- The segment entries that stay until their frames are zeroed (R114). -/
def keptSegs (i : Inst) : FMap Word := mfilter i.segs fun k => i.zeroing.contains (k / 4)

/-- A peer has never acknowledged the abort: the device reports it (R112 step 4), under a code that the spec does not give. -/
def reportPeer (h : Nat) (s : State) (a : Nat × Nat) : State :=
  logErr (burn s 1) { sev := .note, srcType := 0x22, srcInst := a.1, code := Config.freeNat s.fresh % 65536, inst := h, detail := a.2 }

/-- The fields of an instance that the end of a reset leaves: its new incarnation, the VF enable, its entries on the TCK and TEL pages,
whose PG_CAP.INSTPAGE is 0, and the segments that are still being zeroed (R11, R112, R114). -/
def afterReset (i : Inst) : Inst :=
  { incarn := i.incarn + 1, vfEnabled := i.vfEnabled, segs := keptSegs i, zeroing := i.zeroing, zeroPos := i.zeroPos
    zeroRemain := i.zeroRemain, htick := i.htick, lag := i.lag, outcome := i.outcome, consec := i.consec, replaying := i.replaying
    telPwr := i.telPwr, telBusy := i.telBusy }

/-- RESET_SEQUENCE_END (R112 steps 4 and 7, R113): keys, incarnation, rings and the instance's pages; then EMPTY and the completion.
Segments that are still being zeroed stay in effect (R114). -/
def execResetSequenceEnd (h : InstId) (s : State) : Result :=
  .next <|
    let i := instAt s h.val
    if i.st = .resetting ∧ i.resetStep = 3 then
      let s0 := i.abortWait.foldl (reportPeer h.val) s
      let s1 := emptyRings (destroyKeys s0 h.val) h.val
      let s2 := setInst s1 h.val (afterReset i)
      let s3 : State := { s2 with
        pgs := [pgHdg h.val, pgHbcI h.val, pgKtpI h.val, pgPwrI h.val].foldl (fun m p => mset m {} p {}) s2.pgs }
      match i.resetBy with
      | some (r, seq) => finishDesc s3 r seq 0 0
      | none => s3
    else s

end Sys2Proof.Machine
end

