-- ==== Sys2Proof/Machine/Power.lean ====
section
/-! DEFINITION. Machine/Power.lean: the input, the hold-up bank, the save sequence and the field connector (18_power.md). -/

namespace Sys2Proof.Machine

/-! ### The save set (R410–R416) -/

/-- The last hedge tick that an instance committed. -/
def committedTick (i : Inst) : Word64 := if i.committed ∨ i.htick = 0 then i.htick else i.htick - 1

/-- The shape that an instance record holds: during TOPIARY the one that takes effect at B2 (Table — Instance record). -/
def recordShape (i : Inst) : Shape :=
  match i.reshape with
  | some q => { q with borrow := i.borrow }
  | none => { x0 := i.x0, y0 := i.y0, w := i.w, h := i.h, slices := i.slices, borrow := i.borrow, gradeFast := i.gradeFast
              gradeSlow := i.gradeSlow, budget := i.budget, keepPlan := false }

/-- HDG_STATE's numbering. -/
def stateCode : IState → Nat
  | .empty => 0 | .formed => 1 | .loaded => 2 | .running => 3 | .held => 4 | .topiary => 5 | .resetting => 6

/-- The record of an instance; that of an EMPTY one is zero, as every byte is that is not written (Table — Instance record). -/
def instRecord (s : State) (id : Nat) : List Byte :=
  let i := instAt s id
  let q := recordShape i
  if i.st = .empty then []
  else
    leBytes 1 id ++ leBytes 1 (stateCode i.st) ++ leBytes 2 0 ++ leBytes 4 i.incarn.toNat ++ leBytes 8 (committedTick i).toNat ++
      leBytes 4 i.lag.toNat ++ leBytes 1 q.x0 ++ leBytes 1 q.y0 ++ leBytes 1 q.w ++ leBytes 1 q.h ++ leBytes 32 q.slices.toNat ++
      leBytes 1 (b2n q.borrow + 2 * q.gradeFast + 8 * q.gradeSlow) ++ leBytes 1 (b2n (i.keepSrc != 0)) ++ leBytes 2 q.budget

/-- A text under the save key and an IV: AES-256-GCM adds its keystream, so that it both encrypts and decrypts (R417). -/
def saveCipher (iv : List Byte) (text : List Byte) : List Byte :=
  (List.range text.length).map fun k => text.getD k 0 ^^^ Config.gcmByte Config.saveKey (beNat iv) k

/-- The tag of a keep record: over bytes 0–7 of the record and SEQ, and the ciphertext (R417). -/
def keepTag (head iv text : List Byte) (seq : Nat) : List Byte :=
  leBytes 16 (Config.gcmTag Config.saveKey (beNat iv) (leNat (head ++ leBytes 4 seq)) 12 (leNat text) text.length).toNat

/-- Bytes 0–7 of a keep record: the instance id and HDG_INCARN (R417). -/
def keepHead (id : Nat) (incarn : Word) : List Byte := leBytes 2 id ++ leBytes 2 0 ++ leBytes 4 incarn.toNat

/-- The keep record of an instance: its keep source as the committed contents stand, encrypted (R412, R417); zero without one. -/
def keepRecord (s : State) (seq id : Nat) : List Byte :=
  let i := instAt s id
  if i.st = .empty ∨ i.keepSrc = 0 then []
  else
    let iv := leBytes 4 seq ++ leBytes 1 id ++ leBytes 7 0
    let text := saveCipher iv (vaRead s i i.keepSrc.toNat 16384)
    keepHead id i.incarn ++ iv ++ keepTag (keepHead id i.incarn) iv text seq ++ leBytes 28 0 ++ text

/-- The newest 1,024 entries of the error log, oldest first (R399, R416). -/
def savedLog (e : Err) : List ErrEntry :=
  let n := Nat.min 1024 e.log.length
  (List.range n).filterMap fun k =>
    (e.log.find? fun p => decide (p.1 = (e.head + 2048 - n + k) % 2048)).map (·.2)

/-- SEQ of the save set in an MRAM. -/
def seqIn (m : Bytes) : Nat := readLe m 16 4

/-- The SEQ of the last save: the MRAM keeps it under an invalidated header (R416). -/
def lastSeq (s : State) : Word :=
  BitVec.ofNat 32 (Nat.max s.pwr.saveSeq.toNat (Nat.max (seqIn s.pwr.mram0) (seqIn s.pwr.mram1)))

/-- A list of values, `w` bytes each. -/
def fieldBytes (w n : Nat) (f : Nat → Nat) : List Byte := (List.range n).flatMap fun k => leBytes w (f k)

/-- Counters and wear: the spec names what the section holds and no place for it, so the places are the model's (entry 64). -/
def wearBytes (s : State) : List (Nat × List Byte) :=
  [(0x26000, fieldBytes 4 6 fun n => (cntAt (hdrAt s 6) n).toNat),
   (0x26020, leBytes 4 (hdrAt s pgPwr).cnt1.toNat ++ leBytes 4 (hdrAt s pgThm).cnt0.toNat ++
     leBytes 4 (Config.freeWord s.fresh).toNat),
   (0x26040, fieldBytes 1 64 fun key => mget s.fabric.repMap 15 key),
   (0x26100, fieldBytes 8 56 fun m => (d2dAt s m).badLane.toNat),
   (0x26400, fieldBytes 8 8 fun d => (stackAt s d).retMap.toNat),
   (0x28000, fieldBytes 4 4096 fun b => mget s.glb.erases 0 b)]

/-- Where the keep record of an instance lies. -/
def keepBase (id : Nat) : Nat := 0x36000 + 16448 * (id - 1)

/-- The sections of the save set, in ascending offset (Table — Save-set layout). -/
def saveSections (s : State) (seq : Nat) : List (Nat × List Byte) :=
  instIds.map (fun id => (0x1000 + 256 * (id - 1), instRecord s id)) ++
    (List.range 97).map (fun c => (0x5000 + 1024 * c, fieldBytes 1 1024 (ownerIn (calAt s c).table))) ++
    [(0x1E000, (savedLog s.errs).flatMap errBytes)] ++ wearBytes s ++
    instIds.map fun id => (keepBase id, keepRecord s seq id)

/-- SECT_CRC: over bytes 0x1000 to the end of the keep records. -/
def sectCrc (m : Bytes) : Nat := crc32c (readBytes m 0x1000 0x136000)

/-- Bytes 0–59 of the header (Table — Save-set header). -/
def saveHeader (s : State) (cause seq : Nat) (m : Bytes) : List Byte :=
  leBytes 4 0x53575A57 ++ leBytes 2 1 ++ leBytes 1 cause ++ leBytes 1 (b2n s.pwr.holdOk) ++ leBytes 8 s.tck.devTick.toNat ++
    leBytes 4 seq ++ leBytes 4 s.glb.check.toNat ++ leBytes 1 s.glb.copy ++ leBytes 3 0 ++ leBytes 4 (sectCrc m) ++ leBytes 28 0

/-- What the save writes, header last (R413, R416). -/
def saveImage (s : State) (cause : Nat) : Bytes :=
  let seq := (lastSeq s + 1).toNat
  let m := (saveSections s seq).foldl (fun m p => writeBytes m p.1 p.2) []
  let h := saveHeader s cause seq m
  writeBytes m 0 (h ++ leBytes 4 (crc32c h))

/-- A header is invalidated: its MAGIC goes (R413). -/
def invalidated (m : Bytes) : Bytes := clearBytes m 0 4

/-- A hedge stops at t0: before its commit point its tick is discarded, after it that tick stays committed (R410). -/
def saveStop (s : State) (id : Nat) : State :=
  let i := instAt s id
  if i.st = .running then
    stopClusters (if i.committed ∨ discarded i then s else setInst s id { i with dFault := true }) id
  else s

/-- The module goes off without a save set, when the input fails during start-up. -/
def stopStartup (s : State) : State :=
  pinSync s (modGlb (modPwr s fun p => { p with on := false, inputOk := false, permitted := false }) fun g => { g with t0 := false })

/-- The input has failed: save causes 1 and 2. -/
def inputFails (cause : Nat) : Bool := decide (cause = 1 ∨ cause = 2)

/-- What a save trigger does at t0, but for the hedges and the log: the first cause is recorded, repairs and takeover copies in
progress are abandoned, both headers are invalidated, and the bank feeds the module when the input has failed (R409, R410, R413). -/
def trigger (s : State) (cause : Nat) : State :=
  let s1 := modPwr s fun p => { p with
    saving := true, cause := cause, inputOk := p.inputOk && !(inputFails cause), permitted := p.permitted && !(inputFails cause)
    bankSwitch := p.bankSwitch || inputFails cause, interrupted := false
    mram0 := invalidated p.mram0, mram1 := invalidated p.mram1 }
  { s1 with fabric := { s1.fabric with repPend := [], copyDone := [], copyLate := [] } }

/-- The save trigger (R409–R413, R477): the first cause starts the sequence, a later one changes nothing. The hedges stop, the
trigger is logged, and the save set is what then stands. -/
def startSave (s : State) (cause : Nat) : State :=
  if s.pwr.saving ∨ !s.pwr.on then s
  else if !s.glb.ready ∧ cause = 1 then stopStartup s
  else
    let s1 := (s.insts.map (·.1)).foldl saveStop (trigger s cause)
    let s2 := pinSync s (logErr (bump s1 pgPwr 1)
      { sev := .safe, srcType := 0x04, srcInst := 0, code := 0x8003, inst := 0, detail := cause })
    modPwr s2 fun p => { p with writing := some (saveImage s2 cause) }

/-- The save causes that software can switch off act only when they are on (R427, R428). -/
def causeActs (s : State) (cause : Nat) : Bool :=
  if cause = 3 then s.pwr.leakAct else if cause = 6 then s.pwr.shdnEn else decide (1 ≤ cause)

/-- SAVE_TRIGGER (R404, R409). -/
def execSaveTrigger (cause : Fin 8) (s : State) : Result := .next (if causeActs s cause.val then startSave s cause.val else s)

/-- PWR_SHUTDOWN: save cause 7. -/
def execPwrShutdown (s : State) : Result := .next (bar0Write s pgPwr fun t => startSave t 7)

/-- SAVE_POWER_DOWN: 100 µs after the trigger, compute dies, HBM and links are off (R411). -/
def execSavePowerDown (s : State) : Result :=
  .next <|
    if s.pwr.saving ∧ s.pwr.on ∧ s.pwr.computeOn then
      let s1 := modPwr s fun p => { p with computeOn := false }
      { s1 with
        pci := mmap {} (fun _ p => { p with up := false, speed := 0, width := 0 }) s1.pci
        eth := mmap {} (fun _ e => { e with up := 0 }) s1.eth }
    else s

/-- SAVE_COMPLETE: the header is written on both dies, PWR_GOOD falls and the module is off (R413, R414, R429). -/
def execSaveComplete (durationUs : Word) (s : State) : Result :=
  .next <| match s.pwr.writing with
    | some w =>
      if s.pwr.saving ∧ s.pwr.on then
        let s1 := logErr s { sev := .note, srcType := 0x04, srcInst := 0, code := 0x8004, inst := 0,
                             detail := durationUs.toNat }
        pinSync s (modPwr s1 fun p => { p with
          mram0 := w, mram1 := w, writing := none, saveSeq := BitVec.ofNat 32 (seqIn w), on := false })
      else s
    | none => s

/-- SAVE_BANK_EXHAUSTED: the module goes off with no valid save set (R415). -/
def execSaveBankExhausted (s : State) : Result :=
  .next <|
    if s.pwr.saving ∧ s.pwr.on then
      pinSync s (modPwr s fun p => { p with writing := none, on := false, interrupted := true })
    else s

/-! ### The input (R402, R404) -/

/-- SAG_WARN: the input is below 42 V (R404). -/
def execSagWarn (mv : BitVec 16) (s : State) : Result :=
  .next <|
    let s1 := modPwr s fun p => { p with vin := mv }
    if mv.toNat < 42000 ∧ !s.pwr.sagWarn then
      logErr (bump (modPwr s1 fun p => { p with sagWarn := true }) pgPwr 0)
        { sev := .note, srcType := 0x04, srcInst := 0, code := 0x8002, inst := 0, detail := mv.toNat }
    else touch s1 pgPwr

/-- SAG_WARN_CLEAR: 1 ms above 42.5 V (R404). -/
def execSagWarnClear (mv : BitVec 16) (s : State) : Result :=
  .next (touch (modPwr s fun p => { p with vin := mv, sagWarn := p.sagWarn && !decide (42500 < mv.toNat) }) pgPwr)

/-! ### Leak, shutdown request and coolant (R423, R427, R428) -/

/-- LEAK_DETECTED: counted; a save when LEAK_ACT is set, else a NOTE. A line that is not OK detects no leak. -/
def execLeakDetected (s : State) : Result :=
  .next <|
    if !(lineOk s 9) then s
    else
      let s1 := bump s pgPwr 5
      if s.pwr.leakAct then startSave s1 3
      else logErr s1 { sev := .note, srcType := 0x04, srcInst := 0, code := 0x8006, inst := 0, detail := 9 }

/-- SHDN_REQ: a save when SHDN_EN is set; ignored while the line is OPEN. -/
def execShdnReq (s : State) : Result :=
  .next (if s.pwr.shdnEn && mget s.pwr.fld 0 14 != 1 then startSave s 6 else s)

/-- COOLANT_TRIP: the coolant has stood above THM_COOL.TRIP for 1 s; a sensor that is not OK supervises nothing. -/
def execCoolantTrip (s : State) : Result :=
  .next (if lineOk s 10 ∧ (10 * s.thm.coolTrip : Int) < s.thm.coolT then startSave s 4 else s)

/-! ### The hold-up bank (R406–R408) -/

/-- Table — Bank classification at start-up: 0 OK, 1 REVERSED, 2 OPEN, 3 SHORT, 4 UNDERSIZED, 5 ESR_HIGH. At 1.0 A the bank takes
3 ms from 40 V to 50 V at 0.3 mF and 33 ms at 3.3 mF. -/
def bankClass (b : BankIn) : Nat :=
  if b.reversed then 1 else if b.mv50ms < 2000 then 3 else if b.us40to50 < 3000 then 2
  else if b.us40to50 < 33000 then 4 else if 500 < b.esr then 5 else 0

/-- The bank is measured and classified (R406). -/
def classify (s : State) (b : BankIn) : State :=
  let c := bankClass b
  touch (modPwr s fun p => { p with
    holdClass := BitVec.ofNat 3 c, holdOk := decide (c = 0), charging := false, vhold := BitVec.ofNat 16 b.mvNow
    holdC := if c = 1 ∨ c = 3 then 0 else BitVec.ofNat 16 (b.us40to50 / 100)
    holdEsr := if c = 0 ∨ c = 5 then BitVec.ofNat 16 b.esr else 0 }) pgPwr

/-- HOLD_BANK_CLASSIFY: after the input became good (R406). -/
def execHoldBankClassify (b : BankIn) (s : State) : Result := .next (if s.pwr.permitted then classify s b else s)

/-- HOLD_CHARGE_RETRY: a bank classed SHORT is charged again every 10 s (R406). -/
def execHoldChargeRetry (b : BankIn) (s : State) : Result :=
  .next (if s.pwr.permitted ∧ s.pwr.holdClass = 3 then classify s b else s)

/-- HOLD_BANK_CLASS_CHANGE: the tracked bank, with its capacitance and ESR as measured, changes class in operation; leaving OK is
logged (R408). -/
def execHoldBankClassChange (cls : BitVec 3) (c esr : BitVec 16) (s : State) : Result :=
  .next <|
    if cls = s.pwr.holdClass ∨ 5 < cls.toNat then s
    else
      let s1 := bump (modPwr s fun p => { p with
        holdClass := cls, holdOk := decide (cls = 0), holdC := c, holdEsr := esr }) pgPwr 2
      if s.pwr.holdOk then
        logErr s1 { sev := .note, srcType := 0x04, srcInst := 0, code := 0x8005, inst := 0, detail := cls.toNat }
      else s1

/-- HOLD_BANK_OVERCURRENT: above 40 A outside a save, the bank switch opens (R408). -/
def execHoldBankOvercurrent (s : State) : Result :=
  .next (if s.pwr.saving then s else touch (modPwr s fun p => { p with bankSwitch := false }) pgPwr)

/-! ### The field connector (R425–R429) -/

/-- Lines with a driver of the device's: TRIG0–3 as outputs, SMB_ALERT#, FAULT#, SAFE#, PWR_GOOD, AUX3V3 and TICK_OUT. -/
def drivenLine (s : State) (n : Nat) : Bool :=
  decide (n = 8 ∨ (11 ≤ n ∧ n ≤ 13) ∨ n = 15 ∨ n = 16) ||
    (decide (2 ≤ n ∧ n ≤ 5) && decide (s.pwr.trig.toNat / 16 ^ (n - 2) % 4 = 2))

/-- FIELD_LINE_CHANGE: the line state is reported, counted, logged and alerted; a driver on a line that is SHORT or FOREIGN is
released until its retry (R426, R429). -/
def execFieldLineChange (line : Fin 17) (st : BitVec 2) (s : State) : Result :=
  .next <|
    let n := line.val
    if mget s.pwr.fld 0 n = st then s
    else
      let s1 := bump (modPwr s fun p => { p with
        fld := mset p.fld 0 n st
        driverOff := if drivenLine s n && decide (2 ≤ st.toNat) then mset p.driverOff false n true else p.driverOff }) pgPwr 3
      let s2 := logErr s1 { sev := .note, srcType := 0x04, srcInst := 0, code := 0x8006, inst := 0, detail := n + st.toNat * 256 }
      if driverOn s2 8 then emit s2 .smbAlert else s2

/-- The level a status pin takes again. -/
def redrive (s : State) (n : Nat) : State :=
  match n with
  | 11 => drivePin s n "FAULT#" (faultPin s)
  | 12 => drivePin s n "SAFE#" (safePin s)
  | 13 => drivePin s n "PWR_GOOD" (pwrGoodPin s)
  | _ => s

/-- FIELD_DRIVER_RETRY: a released driver is tried again, at the level its pin has now (R426). -/
def execFieldDriverRetry (line : Fin 17) (s : State) : Result :=
  .next (if driverOn s line.val then s
    else redrive (modPwr s fun p => { p with driverOff := mset p.driverOff false line.val false }) line.val)

/-! ### The tenant keep (R419) -/

/-- KEEP_LOAD: the keep goes to the keep source of the instance named in its record, in the instance's own slots, while the
incarnation is the recorded one and the hedge is not RUNNING. -/
def keepLoad (h : Nat) (s : State) : State :=
  let i := instAt s h
  match i.keep with
  | some (incarn, bytes) =>
    if i.st ≠ .running ∧ incarn = i.incarn ∧ i.keepSrc ≠ 0 ∧ !(s.deliveries.any fun d => d.inst == h && d.what == .keep) then
      let d : Delivery := { id := s.nextXfer, inst := h, va := i.keepSrc.toNat, data := bytes, written := bytes.length, moved := 0,
                            what := .keep }
      deliverStage { s with deliveries := s.deliveries ++ [d], nextXfer := s.nextXfer + 1 } d 0 bytes.length
    else s
  | none => s

def execKeepLoad (h : InstId) (s : State) : Result :=
  .next (if h.val = 0 then s else bar0Write s (pgPwrI h.val) (keepLoad h.val))

end Sys2Proof.Machine
end

