-- ==== Sys2Proof/Machine/Phases.lean ====
section
/-! DEFINITION. Machine/Phases.lean: what starts the phases of a tick (R28, R29, R50, R374, R459) and a hedge's commit point
(R51, R267, R271, R316, R360). -/

namespace Sys2Proof.Machine

/-- The RUNNING hedges. -/
def runningIds (s : State) : List Nat := (s.insts.filter fun p => p.2.st == .running).map (·.1)

/-- The clusters that an instance holds. -/
def ownedClusters (s : State) : List Nat := (s.clusters.filter fun p => p.2.owner != 0).map (·.1)

/-! ### WORK (R29, R372) -/

/-- The counts of a queue start over. -/
def freshQueue (q : Queue) : Queue := { q with enq := 0, peak := q.q.length }

/-- A context at WORK cycle 0. -/
def freshCtx (x : Ctx) : Ctx :=
  { x with rdy := [], qN := freshQueue x.qN, qE := freshQueue x.qE, qS := freshQueue x.qS, qW := freshQueue x.qW, qU := freshQueue x.qU }

/-- A sprig at WORK cycle 0. -/
def freshSprig (x : Sprig) : Sprig :=
  { x with c0 := freshCtx x.c0, c1 := freshCtx x.c1, c2 := freshCtx x.c2, c3 := freshCtx x.c3, cycle := 0, divFree := 0, cnt := {} }

/-- A cluster at WORK cycle 0: every count of the tick starts at 0 (R372). -/
def freshCluster (k : Cluster) : Cluster :=
  { k with
    tagPeak := 0, issued := 0, flits := [], tagStall := 0, qleft := none, illegal := none
    landing := [], banks := [], portRead := 0, portWrite := 0, hbmPort := 0
    sprigs := mmap {} (fun _ x => freshSprig x) k.sprigs
    me := { k.me with groupEnd := 0, lastDone := 0, taken := [], began := 0, tickLive := 0, seq := 0, ill := none, busy := 0,
                      stall := 0, cmds := 0, flagged := 0, bits := 0 }
    su := { k.su with taken := [], sweepFree := 0, bndFree := 0, lastDisp := 0, busyS := 0, busyB := 0, stall := 0, updates := 0,
                      flips := 0, sweeps := 0 }
    drw := { k.drw with taken := [], free := 0, busy := 0, stall := 0, cmds := 0, draws := 0, bits := 0, adraws := 0 }
    cnt := { k.cnt with rstall := [] } }

/-- The lane repairs of OPEN have ended (R131). -/
def endLaneRepairs (f : Fabric) : Fabric := { f with d2d := mmap {} (fun _ x => { x with repairing := false }) f.d2d }

/-- WORK_START: OPEN ends, with what its boundary frames leave open decided (R231, R232), and WORK cycle 0 begins at each cluster
(R29). -/
def execWorkStart (s : State) : Result :=
  .next <|
    if ticking s ∧ s.tck.phase = .openP then
      let s1 := (runningIds s).foldl checkPeers s
      modTck { s1 with
        epoch := s1.epoch + 1, fabric := endLaneRepairs s1.fabric
        clusters := mmap {} (fun _ k => freshCluster k) s1.clusters } fun k => { k with phase := .work }
    else s

/-! ### COPPICE (R39, R50, R374, R459) -/

/-- A hedge short of its end marker misses the tick: its clusters stop (R50, R181). -/
def missMarker (s : State) (h : Nat) : State :=
  let i := instAt s h
  if discarded i || i.endMarker || atEndMarker s h then s
  else
    stopClusters (modInst (logErr s
      { sev := .replay, srcType := 0x10, srcInst := h, code := 0x4002, inst := h, detail := h }) h
      fun i => { i with dMissed := true }) h

/-- Publish the six generic counters of a page (R458). -/
def publishCnts (s : State) (pg : Nat) (l : List Nat) : State :=
  modHdr s pg fun h => { h with
    seq := h.seq + 2, tick := s.tck.devTick.setWidth 32
    cnt0 := BitVec.ofNat 32 (l.getD 0 0), cnt1 := BitVec.ofNat 32 (l.getD 1 0), cnt2 := BitVec.ofNat 32 (l.getD 2 0)
    cnt3 := BitVec.ofNat 32 (l.getD 3 0), cnt4 := BitVec.ofNat 32 (l.getD 4 0), cnt5 := BitVec.ofNat 32 (l.getD 5 0) }

/-- The context numbered sprig × 4 + context. -/
def ctxNo (k : Cluster) (n : Nat) : Ctx := ctxAt (sprigAt k (n / 4)) ⟨n % 4, Nat.mod_lt _ (by decide)⟩

/-- A figure of every queue, (sprig × 4 + context) × 5 + queue. -/
def queueFigures (k : Cluster) (f : Queue → Nat) : FMap Nat :=
  (List.range 320).foldl (fun m n => mset m 0 n (f (queueAt (ctxNo k (n / 5)) (n % 5)))) []

/-- What a cluster's pages hold from this COPPICE to the next; the corrections counted from here on belong to that one. -/
def publishedCluster (k : Cluster) : Cluster :=
  { k with
    tagPeakPub := k.tagPeak, flitCorrected := 0, sprigCorrected := 0
    sprigs := mmap {} (fun _ x => { x with pub := x.cnt }) k.sprigs
    me := { k.me with tickFlags := k.me.tickLive, illSeq := k.me.ill.getD k.me.illSeq, corrected := 0 }
    su := { k.su with corrected := 0 }
    cnt := { k.cnt with
      rstallPub := k.cnt.rstall, enqPub := queueFigures k (·.enq), peakPub := queueFigures k (·.peak) } }

/-- The cluster's pages publish their tick-end values (R459). -/
def publishCluster (s : State) (c : Nat) : State :=
  let k := clusterAt s c
  let fl (v : Nat) : Nat := mget k.flits 0 v
  let s1 := publishCnts s (pgClu c 0) [fl 0, fl 1, fl 2, fl 3, k.flitCorrected, k.tagStall]
  let s2 := publishCnts s1 (pgClu c 1) [k.me.busy, k.me.stall, k.me.cmds, k.me.flagged, k.me.corrected, k.me.bits]
  let s3 := publishCnts s2 (pgClu c 2) [sprigSum k (·.busy), sprigSum k (·.dep) + sprigSum k (·.q) + sprigSum k (·.port),
    sprigSum k (·.switch), k.issued, k.sprigCorrected, sprigSum k (·.rnd)]
  let s4 := publishCnts s3 (pgClu c 3) [k.su.busyS, k.su.busyB, k.su.stall, k.su.updates, k.su.flips, k.su.corrected]
  let s5 := publishCnts s4 (pgClu c 4) [k.drw.busy, k.drw.stall, k.drw.cmds, k.drw.draws, k.drw.bits, k.drw.adraws]
  modCluster (publishHdr s5 (pgClu c 5)) c publishedCluster

/-- A hedge's WORK ends: what its mesh and ports still owe is done, the rest of the sprigs' cycles are counted, and every write to a
store has landed (R123, R163, R175). -/
def finishHedge (s : State) (h : Nat) : State :=
  let w := workCycles s
  (clustersOf (instAt s h)).foldl (fun t c => modCluster t c (finishCluster w))
    (if discarded (instAt s h) then s else netTo h w netFuel s)

/-- COPPICE_START: hedges still running stop, the counters are published and compared, and COPPICE takes its share of the phase
correction (R39, R50, R374, R459). -/
def execCoppiceStart (s : State) : Result :=
  .next <|
    if ticking s ∧ s.tck.phase = .work then
      let s0 := (runningIds s).foldl finishHedge s
      let s1 := modTck s0 fun k => { k with phase := .coppice }
      let s2 := (runningIds s1).foldl missMarker s1
      let s3 := (ownedClusters s2).foldl publishCluster s2
      coppiceCorrection ((runningIds s3).foldl compareHedge s3)
    else s

/-! ### COMMIT (R28, R56) -/

/-- Background jobs that the COPPICE leaves unfinished (TCK_BGSTS). -/
def bgUnfinished (k : Tck) : Nat := b2n (k.bgScrub != 0) + b2n k.bgTrim + b2n k.bgFlash + b2n k.bgTel

/-- COMMIT_START: each unfinished background job counts one yield (R56), an unfinished snapshot has used one more COPPICE, and the
window for repairs of the stitch opens (R59, R127). -/
def execCommitStart (s : State) : Result :=
  .next <|
    if ticking s ∧ s.tck.phase = .coppice then
      let s1 := bumpBy (modTck (repairStitch s) fun k => { endCorrection k with phase := .commit }) pgTck 4 (bgUnfinished s.tck)
      if s.tel.pending then bump (modTel s1 fun t => { t with used := t.used + 1 }) 7 2 else s1
    else s

/-! ### The commit point (R33, R34, R51, R267, R271) -/

/-- The commit of a hedge at one instant: windows, carried state, completions, boundary frames, sends, trace, and the supervisors'
mirror record. -/
def commitHedge (s : State) (h : Nat) : State :=
  let s1 := commitWindows s h
  let s2 := (clustersOf (instAt s1 h)).foldl (fun t c => modCluster t c commitCarried) s1
  let s3 := modInst s2 h fun i => { i with committed := true }
  mirrorRecord (annealCommit (releaseSends (sendBoundaryFrames (postOwner s3 h) h) h) h)

/-- Sends of the last committed tick that have not left are abandoned, and the tick in progress diverges (R317, code 0x4005). -/
def lateSends (s : State) (h : Nat) : State :=
  divergeFault (logErr (abandonSends s h)
    { sev := .replay, srcType := 0x22, srcInst := 0x100 + h, code := 0x4005, inst := h, detail := (sendsLeft s h).length }) h

/-- COMMIT_POINT: of a RUNNING hedge in COMMIT whose tick is not discarded (R51). -/
def execCommitPoint (h : InstId) (s : State) : Result :=
  .next <|
    let i := instAt s h.val
    if ticking s ∧ s.tck.phase = .commit ∧ i.st = .running ∧ !i.committed ∧ !(discarded i) then
      if sendsLeft s h.val = [] then commitHedge s h.val else lateSends s h.val
    else s

end Sys2Proof.Machine
end

