-- ==== Sys2Proof/Machine/Entropy.lean ====
section
/-! DEFINITION. Machine/Entropy.lean: random sources other than block noise (10_random.md): the draw units, the class A
channels, the lane seeds and the class A buffers that a boundary delivers. -/

namespace Sys2Proof.Machine

/-! ### Draw commands (R249, R250, R254) -/

/-- A draw command's fields (R249). -/
structure DrawCmd where
  op : Nat
  fmt : Nat
  logp : Bool
  aclass : Bool
  k : Nat
  addr : Nat
  len : Nat
  par : Nat
  hi : Nat
  deriving DecidableEq, Repr

def drawCmd (u : UCmd) : DrawCmd :=
  { op := bits u.w0.toNat 3 0, fmt := bits u.w0.toNat 5 4, logp := bit u.w0.toNat 6, aclass := bit u.w0.toNat 7,
    k := bits u.w0.toNat 17 9, addr := 64 * bits u.w0.toNat 31 18, len := bits u.w1.toNat 15 0 + 1,
    par := 64 * bits u.w1.toNat 29 16, hi := bits u.w1.toNat 31 30 }

/-- Bytes of one logit. -/
def logitSize (fmt : Nat) : Nat := if fmt = 0 then 4 else 2

/-- The format of the logits. -/
def logitFmt (fmt : Nat) : Fmt := match fmt with | 0 => fp32 | 1 => bf16 | _ => fp16

/-- τ and p of the parameter block. -/
def drawTau (st : Bytes) (m : DrawCmd) : Fl := decodeFl fp32 (readLe st m.par 4)
def drawP (st : Bytes) (m : DrawCmd) : Fl := decodeFl fp32 (readLe st (m.par + 4) 4)

/-- The command is ILLEGAL (R249, R250). -/
def drawBad (st : Bytes) (m : DrawCmd) : Bool :=
  let tau := drawTau st m
  let p := drawP st m
  m.op != 1 || m.fmt == 3 || m.hi != 0 || decide (256 < m.k) || decide (0x100000 < m.addr + m.len * logitSize m.fmt) ||
    isNan tau || isInf tau || flLt tau (.fin false 0 0) ||
    !(flLt (.fin false 0 0) p && flLe p (.fin false 1 0)) || (m.k == 0 && flLt p (.fin false 1 0))

/-- The cycles from dispatch to completion (R254). -/
def drawCycles (st : Bytes) (m : DrawCmd) : Nat :=
  let n := (m.len + 15) / 16
  if isZero (drawTau st m) then 12 + n else if m.k = 0 then 12 + 3 * n else 12 + n + 80

/-! ### The draw (R251, R252) -/

/-- The logits, NaN as −∞, with NANIN. -/
def logits (st : Bytes) (m : DrawCmd) : List Fl × Bool :=
  let l := (List.range m.len).map fun j =>
    decodeFl (logitFmt m.fmt) (readLe st (m.addr + j * logitSize m.fmt) (logitSize m.fmt))
  (l.map fun x => if isNan x then .inf true else x, l.any isNan)

/-- The lowest index of the largest value. -/
def argMax (l : List (Nat × Fl)) : Nat × Fl :=
  match l with
  | [] => (0, .inf true)
  | a :: t => t.foldl (fun b x => if flLt b.2 x.2 then x else b) a

/-- Insert in descending order of value; a tie stays behind the earlier index. -/
def insertDesc (a : Nat × Fl) : List (Nat × Fl) → List (Nat × Fl)
  | [] => [a]
  | b :: t => if flLt b.2 a.2 then a :: b :: t else b :: insertDesc a t

/-- The K largest, in descending order, ties at the cut to the lower index. -/
def largest (k : Nat) (l : List (Nat × Fl)) : List (Nat × Fl) := l.foldl (fun acc a => (insertDesc a acc).take k) []

/-- The survivors of top-k, in ascending index (step 2). -/
def survivors (k : Nat) (l : List (Nat × Fl)) : List (Nat × Fl) :=
  if k = 0 ∨ l.length ≤ k then l
  else
    let top := (largest k l).map (·.1)
    l.filter fun a => top.contains a.1

/-- The fixed pairwise tree over 2^n values, absent ones +0. -/
def treeSum : Nat → List Fl → Fl
  | 0, l => l.headD (.fin false 0 0)
  | n + 1, l => (add32 (treeSum n (l.take (2 ^ n))) (treeSum n (l.drop (2 ^ n)))).1

/-- S: groups of 16 consecutive indices by the tree, the groups in ascending index (step 3). -/
def groupSum : Nat → List Fl → Fl → Fl
  | 0, _, acc => acc
  | n + 1, l, acc => if l.isEmpty then acc else groupSum n (l.drop 16) (add32 acc (treeSum 4 (l.take 16))).1

/-- The sum of step 3 over the values at some indices of `n` logits, +0 elsewhere. -/
def sumAt (n : Nat) (e : List (Nat × Fl)) : Fl :=
  let l := (List.range n).map fun i => ((e.find? fun a => a.1 == i).map (·.2)).getD (.fin false 0 0)
  groupSum (n / 16 + 1) l (.fin false 0 0)

/-- The shortest prefix whose sequential sum is at least p; none when no prefix reaches it (step 4). -/
def topP (p : Fl) : Fl → List (Nat × Fl) → Option (List Nat)
  | _, [] => none
  | acc, a :: t =>
    let s := (add32 acc a.2).1
    if flLe p s then some [a.1] else (topP p s t).map (a.1 :: ·)

/-- The sequential sums C_i in ascending index (step 6). -/
def runningSums : Fl → List (Nat × Fl) → List (Nat × Fl)
  | _, [] => []
  | acc, a :: t => let s := (add32 acc a.2).1
                   (a.1, s) :: runningSums s t

/-- What a draw answers: the index, π, the log-probability, the flags, and whether it takes random bits. -/
structure DrawOut where
  index : Nat
  pi : Word
  logp : Word
  flags : BitVec 6
  drew : Bool

def one32 : Word := 0x3F800000
def ninf32 : Word := 0xFF800000

/-- A flag bit of the draw unit: 0 NANIN, 1 INFIN, 2 AFALLBACK, 3 PSHORT, 4 ILLEGAL, 5 ALLNEG. -/
def drwFlag (b : Bool) (n : Nat) : BitVec 6 := if b then 1 <<< n else 0

/-- Steps 3 to 6 of R251 over survivors with a finite largest x; one at −∞ has probability 0 (R252). -/
def drawSteps (m : DrawCmd) (p : Fl) (surv : List (Nat × Fl)) (mx : Fl) (r : Word) (fl : BitVec 6) : DrawOut :=
  let diff (x : Fl) : Fl := (add32 x (flNeg mx)).1
  let e := surv.map fun a => (a.1, if a.2 = .inf true then .fin false 0 0
    else f32 (within2 fnExp (to32 (diff a.2)) (flExp (diff a.2))))
  let s := sumAt m.len e
  let q := e.map fun a => (a.1, rnd32 (flDiv a.2 s).1)
  let kept : Option (List Nat) :=
    if flLt p (.fin false 1 0) then topP p (.fin false 0 0) (largest q.length q) else some (q.map (·.1))
  let ids := kept.getD (q.map (·.1))
  let ek := e.filter fun a => ids.contains a.1
  let s' := sumAt m.len ek
  let pis := ek.map fun a => (a.1, rnd32 (flDiv a.2 s').1)
  let cs := runningSums (.fin false 0 0) pis
  let t := rnd32 (flMul (.fin false (2 * r.toNat + 1) (-33)) (((cs.getLast?).map (·.2)).getD (.fin false 0 0))).1
  let i := match cs.find? fun a => flLt t a.2 with
    | some a => a.1
    | none => ((cs.getLast?).map (·.1)).getD 0
  let at0 (l : List (Nat × Fl)) : Fl := ((l.find? fun a => a.1 == i).map (·.2)).getD (.fin false 0 0)
  let ln := f32 (within2 fnLn (to32 s') (flLn s'))
  { index := i, pi := to32 (at0 pis), logp := to32 (add32 (diff (at0 surv)) (flNeg ln)).1,
    flags := fl ||| drwFlag kept.isNone 3, drew := true }

/-- A draw on the random word `r` (R251, R252). -/
def drawResult (st : Bytes) (m : DrawCmd) (r : Word) : DrawOut :=
  let tau := drawTau st m
  let l := logits st m
  let il := (List.range m.len).zip l.1
  let fl := drwFlag l.2 0
  if isZero tau then
    { index := (argMax il).1, pi := one32, logp := 0,
      flags := fl ||| drwFlag (l.1.all fun x => decide (x = .inf true)) 5, drew := false }
  else
    let surv := survivors m.k (il.map fun a => (a.1, rnd32 (flDiv a.2 tau).1))
    let mx := (argMax surv).2
    if mx = .inf false then
      { index := (argMax surv).1, pi := one32, logp := 0, flags := fl ||| drwFlag true 1, drew := true }
    else if mx = .inf true then
      { index := (surv.head?.map (·.1)).getD 0, pi := 0, logp := ninf32, flags := fl ||| drwFlag true 5, drew := true }
    else drawSteps m (drawP st m) surv mx r fl

/-- The 32 bits that a draw takes: the next class A word, or two output words of the unit's generator (R245, R252). With
the unit after it, and whether class A fell back. -/
def drawBits (d : Drw) (aclass : Bool) : Word × Drw × Bool :=
  match aclass, d.abuf with
  | true, w :: t => (w, { d with abuf := t }, false)
  | _, _ =>
    let r := lfsrPair d.lfsr
    (r.1, { d with lfsr := r.2, bits := d.bits + 32 }, aclass)

/-- The words that return to U (R253). -/
def drawReturn (m : DrawCmd) (o : DrawOut) : List Word :=
  [BitVec.ofNat 32 (o.index % 65536 + o.flags.toNat * 65536), o.pi] ++ if m.logp then [o.logp] else []

/-- The command at the head of a draw unit's queue, while the unit is free. -/
def drawHead (s : State) (k : Cluster) (draw : Bool) : Option UCmd :=
  if clusterRuns s k then
    match k.drw.queue with
    | u :: _ => if k.drw.run.isNone ∧ decide (bits u.w0.toNat 3 0 = 1) = draw then some u else none
    | [] => none
  else none

/-- The WORK cycle in which a command dispatches: in order, when the unit is free (R249). -/
def drawAt (d : Drw) (u : UCmd) : Nat := Nat.max u.at_ d.free

/-- A command starts: it completes `cycles` after its dispatch and returns `ret` (R254). -/
def drawStart (d : Drw) (u : UCmd) (cycles : Nat) (ret : List Word) (ok : Bool) : Drw :=
  let t := drawAt d u
  { d with
    queue := d.queue.tail, run := some { cmd := u, ret := ret, done := t + cycles }, free := t + cycles
    busy := d.busy + (if ok then cycles else 0), stall := d.stall + (if ok then 0 else cycles) }

/-- What a command returns whose values the spec does not state: a NOP or an ILLEGAL one (entry 23). -/
def drawUnstated (u : UCmd) (fl : BitVec 6) : DrawOut :=
  { index := (Config.unstated 4 u.w0.toNat u.w1.toNat).toNat, pi := Config.unstated 5 u.w0.toNat u.w1.toNat,
    logp := Config.unstated 6 u.w0.toNat u.w1.toNat, flags := fl, drew := false }

/-- A command that the unit refuses: ILLEGAL, its cycles stalled; the index and the values it returns are free (R250, R253,
entry 23). -/
def drawIllegal (s : State) (c : Nat) (u : UCmd) (st : Bytes) : State :=
  let m := drawCmd u
  modCluster s c fun k =>
    { k with
      drw := { drawStart k.drw u (drawCycles st m) (drawReturn m (drawUnstated u (drwFlag true 4))) false with
               flags := k.drw.flags ||| drwFlag true 4 }
      illegal := k.illegal.or (some (0x44, 0x048)) }

/-- The cluster as it stands in the cycle of a dispatch, with the store as the unit reads it then (R250). -/
def drawSees (s : State) (c : Nat) (u : UCmd) : State × Bytes :=
  let t := drawAt (clusterAt s c).drw u
  let s1 := netTo (ownerOf s c) (t + 1) netFuel s
  let m := storeSeen (clusterAt s1 c) t t s1.fresh
  (burn s1 m.2, m.1)

/-- DRAW (R249–R254). -/
def execDraw (c : Cl) (s : State) : Result :=
  .next <|
    match drawHead s (clusterAt s c.val) true with
    | none => s
    | some u =>
      let r := drawSees s c.val u
      let st := r.2
      let m := drawCmd u
      if drawBad st m then drawIllegal r.1 c.val u st
      else
        let s1 := reportPoison (reportPoison r.1 c.val m.addr (m.len * logitSize m.fmt)) c.val m.par 8
        modCluster s1 c.val fun k =>
          let b := drawBits k.drw m.aclass
          let o := drawResult st m b.1
          let d := if o.drew then b.2.1 else k.drw
          let o1 := { o with flags := o.flags ||| drwFlag (o.drew && b.2.2) 2 }
          { k with drw := { drawStart d u (drawCycles st m) (drawReturn m o1) true with
            flags := d.flags ||| o1.flags, draws := d.draws + b2n o.drew, adraws := d.adraws + b2n (o.drew && m.aclass) } }

/-- NOP (OP 0); every other OP is ILLEGAL (R249). What a NOP returns the spec does not state (entry 23). -/
def execDrawNop (c : Cl) (s : State) : Result :=
  .next <|
    match drawHead s (clusterAt s c.val) false with
    | none => s
    | some u =>
      let r := drawSees s c.val u
      let m := drawCmd u
      if m.op = 0 then
        modCluster r.1 c.val fun k =>
          { k with drw := drawStart k.drw u (drawCycles r.2 m) (drawReturn m (drawUnstated u 0)) true }
      else drawIllegal r.1 c.val u r.2

/-- What is left of a return after the words for which U has space; it waits in the unit's return buffer, which stalls the unit for a
cycle at a time (R173). -/
def drawWaits (d : Drw) (r : URun) (left : List Word) : Drw :=
  { d with run := some { r with ret := left, done := r.done + 1 }, free := d.free + 1, stall := d.stall + 1 }

/-- DRAW_COMPLETE (R253): its entries go to the U queue of the issuing context one by one, as far as there is space (R173). -/
def execDrawComplete (c : Cl) (s : State) : Result :=
  .next <|
    let k := clusterAt s c.val
    match k.drw.run with
    | none => s
    | some r =>
      if !(clusterRuns s k) then s
      else
        let n := Nat.min r.ret.length (uSpace k r.cmd.sprig.val r.cmd.ctx)
        modCluster s c.val fun k =>
          let k1 := deliverU k r.cmd.sprig.val r.cmd.ctx (r.ret.take n) r.done
          { k1 with drw := if n = r.ret.length then { k1.drw with run := none, cmds := k1.drw.cmds + 1 }
                           else drawWaits k1.drw r (r.ret.drop n) }

/-! ### Class A channels (R240–R242, R247, R256) -/

/-- The channel from which an expander reseeds: its own, or the next that has not failed (R247). -/
def seedChannel (fail : BitVec 4) (n : Nat) : Nat :=
  (((List.range 4).map fun j => (n + j) % 4).find? fun c => !fail.getLsbD c).getD n

/-- ENT_SEEDMAP (R247): with every channel failed it keeps its value. -/
def seedMapOf (e : Ent) : BitVec 8 :=
  if e.fail = 15 then e.seedMap
  else BitVec.ofNat 8 ((List.range 4).foldl (fun a n => a + seedChannel e.fail n * 4 ^ n) 0)

/-- DEGRADED when every channel has failed: DRAW_ENTROPY transfers in progress end in an error (R256). -/
def degradeStep (s : State) : State :=
  if s.ent.fail = 15 ∧ !s.ent.degraded then
    (s.xfers.filter fun x => x.kind == .entropy).foldl (fun t x => endTransfer t x 0x07)
      (logErr (modEnt s fun e => { e with degraded := true })
        { sev := .note, srcType := 0x06, srcInst := 0, code := 0x6003, inst := 0, detail := 0 })
  else s

/-- The repetition count test, cutoff 41: the last 41 raw samples are the same (R240). -/
def rctFails (run : List Bool) : Bool :=
  let l := run.reverse.take 41
  decide (l.length = 41) && l.all fun b => some b == l.head?

/-- The adaptive proportion test, window 1,024, cutoff 796: how often the window's first sample occurs in it (R240). -/
def aptFails (window : List Bool) : Bool :=
  let l := window.take 1024
  decide (796 ≤ (l.filter fun b => some b == l.head?).length)

/-- No 41 samples in a row are the same: each sample with the length of the run that it ends. -/
def rctPasses : Option Bool → Nat → List Bool → Bool
  | _, _, [] => true
  | p, n, b :: l => let n' := if p = some b then n + 1 else 1
                    decide (n' < 41) && rctPasses (some b) n' l

/-- A class A channel fails a health test, or both (R242). -/
def classAFail (s : State) (n : Nat) (rct apt injected : Bool) : State :=
  let b : BitVec 4 := 1 <<< n
  let s0 := bumpBy (bumpBy s pgEnt 0 (b2n rct)) pgEnt 1 (b2n apt)
  let s1 := modEnt s0 fun e =>
    let e1 := { e with ok := e.ok &&& ~~~b, fail := e.fail ||| b, starting := e.starting &&& ~~~b }
    { e1 with seedMap := seedMapOf e1 }
  degradeStep (logErr s1 { sev := .note, srcType := 0x06, srcInst := 0, code := 0x6002, inst := 0, detail := n,
                           injected := injected })

/-- CLASS_A_FAIL: the tests run on a raw sample of a channel that delivers or starts: on the run of samples that it ends, and on the
window that it stands in (R240, R242). -/
def execClassAFail (n : PortId) (run window : List Bool) (s : State) : Result :=
  .next <|
    if (s.ent.ok.getLsbD n.val ∨ s.ent.starting.getLsbD n.val) ∧ (rctFails run ∨ aptFails window) then
      classAFail s n.val (rctFails run) (aptFails window) false
    else s

/-- CLASS_A_RETRY: ENT_CTL.RETRY restarts channels; FAIL stays until the start-up test passes (R242). -/
def classARetry (mask : BitVec 4) (s : State) : State :=
  modEnt s fun e => { e with ok := e.ok &&& ~~~mask, starting := e.starting ||| mask }

def execClassARetry (mask : BitVec 4) (s : State) : Result := .next (bar0Write s pgEnt (classARetry mask))

/-- The key DRBG is instantiated from 384 class A bits once a channel has passed its start-up test, and P1's standby instance from 384
of its own (R243, R444). -/
def instantiateKeys (e : Ent) : Ent :=
  if e.keyDrbg ∨ e.ok = 0 then e else { e with keyDrbg := true, keyStandby := true, keyBits := e.keyBits + 768 }

/-- The ENTROPY stage is over, so a channel that passes may instantiate the key DRBG (R444). -/
def entropyRan (s : State) : Bool := s.glb.stage == 6 || s.glb.stage == 7

/-- CLASS_A_STARTUP_PASS: the first 1,024 samples pass both tests, the channel delivers, and DEGRADED clears (R241, R242, R256). -/
def execClassAStartupPass (n : PortId) (samples : List Bool) (s : State) : Result :=
  .next <|
    if s.ent.starting.getLsbD n.val ∧ samples.length = 1024 ∧ rctPasses none 0 samples ∧ !(aptFails samples) then
      touch (modEnt s fun e =>
        let b : BitVec 4 := 1 <<< n.val
        let e1 := { e with ok := e.ok ||| b, fail := e.fail &&& ~~~b, starting := e.starting &&& ~~~b, degraded := false }
        let e2 := { e1 with seedMap := seedMapOf e1 }
        if entropyRan s then instantiateKeys e2 else e2) pgEnt
    else s

/-! ### What a boundary delivers (R246, R248, R255) -/

/-- The generators of a cluster: 16 ME lanes, 16 sprigs, the draw unit. -/
def gensPerCluster : Nat := 33

/-- The fresh seed of generator `j` of cluster `c`: free words, 0 replaced (R246). -/
def laneSeed (s : State) (c j : Nat) : Word64 :=
  let n := s.fresh + 2 * (gensPerCluster * c + j)
  let v : Word64 := Config.freeWord n ++ Config.freeWord (n + 1)
  if v = 0 then 0x9E3779B97F4A7C15 else v

/-- The seed of a generator is complete at this OPEN (R248): `late` names the generators whose seeds are not. -/
def seedThere (late : List Nat) (c j : Nat) : Bool := !(late.contains (gensPerCluster * c + j))

/-- The lanes of one cluster load their seeds; one whose seed is missing goes on from where it stands. -/
def seedCluster (s : State) (late : List Nat) (c : Nat) (k : Cluster) : Cluster :=
  let seed (j : Nat) (old : Word64) : Word64 := if seedThere late c j then laneSeed s c j else old
  let k1 := (List.range 16).foldl (fun y p => modSprig y p fun x => { x with lfsr := seed (16 + p) x.lfsr }) k
  { k1 with
    me := { k1.me with lfsr := (List.range 16).foldl (fun m j => mmod m 0 j (seed j)) k1.me.lfsr }
    drw := { k1.drw with lfsr := seed 32 k1.drw.lfsr } }

/-- Every lane generator takes a seed at OPEN, and those that miss it are counted (R246, R248). Each expander has reseeded once. -/
def loadSeeds (late : List Nat) (s : State) : State :=
  let s1 := (List.range 512).foldl (fun t c => modCluster t c (seedCluster s late c)) s
  let missed := (late.dedup.filter fun g => decide (g < 512 * gensPerCluster)).length
  bumpBy (burn (modEnt s1 fun e => { e with seedMiss := e.seedMiss + BitVec.ofNat 32 missed }) (512 * 2 * gensPerCluster))
    pgEnt 3 4

/-- The class A bits of one tick: 1 Gb/s from each channel that delivers (R241, entry 23). -/
def classABits (s : State) : Nat := ((List.range 4).filter fun n => s.ent.ok.getLsbD n).length * s.tck.period * 1000

/-- The class A bits of the tick that ended go to the key DRBG, the expanders, the draw units with ACLASS = 1, 8 words each in ascending
cluster id while they last, and what is left to DRAW_ENTROPY; unused words of the last tick are discarded (R255). -/
def fillClassA (s : State) : State :=
  let supply := classABits s - s.ent.keyBits - 4 * 384
  let want := (s.clusters.filter fun p => p.2.drw.aclass).map (·.1)
  let served := want.take (supply / 256)
  let s1 : State := { s with clusters := mmap {} (fun _ k => { k with drw := { k.drw with abuf := [] } }) s.clusters }
  let s2 := served.foldl (fun t c =>
    let w := freshWords t 8
    modCluster w.2 c fun k => { k with drw := { k.drw with abuf := w.1 } }) s1
  bumpBy (modEnt s2 fun e => { e with keyBits := 0, pool := supply - 256 * served.length }) pgEnt 2 (classABits s / 256)

end Sys2Proof.Machine
end

