-- ==== Sys2Proof/Machine/Firmware.lean ====
section
/-! DEFINITION. Machine/Firmware.lean: firmware slots and fuses (R433–R436), the flash window (R440), wear levelling (R55), and
what the device answers to SPDM and PLDM requests (R446, R447). -/

namespace Sys2Proof.Machine

def pgGlb : Nat := 0
def pgCfg : Nat := 5

/-! ### Firmware (R434, R436) -/

/-- GLB_CTL.FW_COMMIT: the fuses of both dies burn up to the running SVN; before READY, or where a count would fall, the write is
ignored with PG_ERR bit 0 (R436). -/
def fwCommit (s : State) : State :=
  if !s.glb.ready ∨ s.glb.svn < s.glb.fused0 ∨ s.glb.svn < s.glb.fused1 then pgErr s pgGlb 0
  else modGlb s fun g => { g with fused0 := g.svn, fused1 := g.svn }

def execFwCommit (s : State) : Result := .next (bar0Write s pgGlb fwCommit)

/-- GLB_CTL.FW_ACTIVATE: the boot record names the slot in FW_SEL. In recovery mode only the flash window serves (R435). -/
def fwActivate (s : State) : State :=
  if s.glb.stage = 8 then s else modGlb s fun g => { g with bootSlot := g.fwSel }

def execFwActivate (s : State) : Result := .next (bar0Write s pgGlb fwActivate)

/-! ### Flash (19_startup.md, CFG page) -/

/-- What a flash address belongs to: 1 slot A, 2 slot B, 3 a record area. The areas of the two configuration copies are none of
these; the spec places no other area (entry 6). -/
def flashKind (a : Nat) : Nat := if a / 65536 = 0x100 ∨ a / 65536 = 0x101 then 0 else Config.flashRegion (a / 65536)

/-- The address of a flash operation: CFG_FL_ADDR, 2 KiB aligned. -/
def flashAddr (g : Glb) : Nat := g.flAddr.toNat / 2048 * 2048

/-- A firmware slot is booted: the device has passed FIRMWARE and is not in recovery mode. -/
def slotBooted (g : Glb) : Bool := decide (2 ≤ g.stage ∧ g.stage ≠ 8)

/-- Programming or erasing the booted slot or a record area is refused (CFG_FL_STS.FL_REFUSED). -/
def flashRefused (g : Glb) : Bool :=
  let k := flashKind (flashAddr g)
  k == 3 || (slotBooted g && k == (if g.slot then 2 else 1))

/-- CFG_FL_OP: 1 read, 2 program, 3 erase. While FL_BUSY it is ignored. -/
def flashStart (op : BitVec 2) (s : State) : State :=
  if s.glb.flOp.isSome ∨ op = 0 then s
  else if op ≠ 1 ∧ flashRefused s.glb then bump (modGlb s fun g => { g with flRefused := true }) pgCfg 3
  else modGlb s fun g => { g with flOp := some op }

def execFlashRead (s : State) : Result := .next (bar0Write s pgCfg (flashStart 1))
def execFlashProgram (s : State) : Result := .next (bar0Write s pgCfg (flashStart 2))
def execFlashErase (s : State) : Result := .next (bar0Write s pgCfg (flashStart 3))

/-- Flash is held complemented, so that erased flash (0xFF) is not listed (entry 5). -/
def flip (l : List Byte) : List Byte := l.map fun b => ~~~b

/-- Bytes of the flash. -/
def flashBytes (g : Glb) (a n : Nat) : List Byte := flip (readBytes g.flash a n)

/-- What an operation leaves when it is done. -/
def flashDone (op : BitVec 2) (g : Glb) : Glb :=
  let a := flashAddr g
  match op with
  | 1 => { g with flOp := none, flData := writeBytes [] 0 (flashBytes g a 2048) }
  | 2 => { g with flOp := none, flash := writeBytes g.flash a (flip (readBytes g.flData 0 2048)) }
  | _ => { g with
      flOp := none, flash := clearBytes g.flash (a / 65536 * 65536) 65536
      erases := mset g.erases 0 (a / 65536) (mget g.erases 0 (a / 65536) + 1) }

/-- FLASH_OP_DONE: the operation completes, is counted by kind, and FL_BUSY clears. -/
def execFlashOpDone (s : State) : Result :=
  .next <| match s.glb.flOp with
    | some op => bump (modGlb s (flashDone op)) pgCfg (op.toNat - 1)
    | none => s

/-- FLASH_WEAR_STEP: a background job of COPPICE; unfinished, it stays pending (R55, R56). It changes nothing that software can
read. -/
def execFlashWearStep (finished : Bool) (s : State) : Result :=
  .next (if s.tck.phase = .coppice then touch (modTck s fun k => { k with bgFlash := !finished }) pgTck else s)

/-! ### Attestation and the sideband (R446, R447) -/

/-- A digest of bytes. -/
def digest (l : List Byte) : BitVec 384 := Config.sha384 (leNat l) l.length

/-- The repair record as bytes: clusters, lanes, stitch groups and pseudo-channels. The spec gives it no layout (entry 64). -/
def repairBytes (g : Glb) : List Byte :=
  (g.repairRec.flatMap fun c => leBytes 2 c) ++ (g.repairLanes.flatMap fun p => leBytes 1 p.1 ++ leBytes 8 p.2.toNat) ++
    (g.repairStitch.flatMap fun p => leBytes 2 p.1) ++ g.repairPcs.flatMap fun p => leBytes 1 p.1 ++ leBytes 8 p.2.toNat

/-- Table — SPDM measurements. -/
def measurement (g : Glb) (n : Nat) : List Byte :=
  match n with
  | 1 => leBytes 48 g.measFw.toNat
  | 2 => leBytes 4 g.fwVersion.toNat ++ leBytes 1 g.svn ++ leBytes 1 g.measFused0 ++ leBytes 1 g.measFused1
  | 3 => leBytes 48 g.measCfg.toNat ++ leBytes 1 g.copy
  | 4 => leBytes 48 (digest (repairBytes g)).toNat
  | _ => []

/-- The requests of R446. -/
def spdmSupported : SpdmReq → Bool
  | .getVersion | .getCapabilities | .negotiateAlgorithms | .getDigests | .getCertificate | .challenge => true
  | .getMeasurements n => decide (1 ≤ n ∧ n ≤ 4)
  | .keyExchange | .pskExchange | .other => false

/-- The measurement that an answer carries. -/
def spdmData (g : Glb) : SpdmReq → List Byte
  | .getMeasurements n => measurement g n
  | _ => []

/-- Firmware answers: from the FIRMWARE stage on, and in recovery mode (R447). -/
def firmwareServes (s : State) : Bool := s.pwr.on && s.glb.t0 && decide (1 ≤ s.glb.stage)

/-- The sideband carries a request to this address: the module's, while SMB_SCL and SMB_SDA are OK (R426, R447). -/
def sidebandServes (s : State) (addr : BitVec 7) : Bool :=
  lineOk s 6 && lineOk s 7 && addr == 0x60 + s.pwr.slotId.setWidth 7

/-- SPDM_REQUEST: through PCIe DOE on PF0, or on the sideband; counted, and answered when R446 lists it. -/
def execSpdmRequest (q : SpdmReq) (via : Option (BitVec 7)) (s : State) : Result :=
  .next (if firmwareServes s && (match via with | some a => sidebandServes s a | none => s.pwr.computeOn)
    then emit (bump s pgCfg 4) (.spdm q (spdmSupported q) (spdmData s.glb q)) else s)

/-- The value of a PLDM sensor (R447). -/
def pldmValue (s : State) : PldmSensor → Int
  | .temp n => mget s.thm.temps 0 n.val
  | .coolant => s.thm.coolT
  | .vin => s.pwr.vin.toNat
  | .vhold => s.pwr.vhold.toNat
  | .inputPower => s.pwr.pin
  | .holdClass => s.pwr.holdClass.toNat
  | .fieldLine n => (mget s.pwr.fld 0 n.val).toNat
  | .override => b2n s.thm.override

/-- PLDM_REQUEST: answered on the sideband (R447). -/
def execPldmRequest (q : PldmSensor) (addr : BitVec 7) (s : State) : Result :=
  .next (if firmwareServes s && sidebandServes s addr then emit s (.pldm q (pldmValue s q)) else s)

end Sys2Proof.Machine
end

