-- ==== Sys2Proof/Machine/Pages.lean ====
section
/-! DEFINITION. Machine/Pages.lean: the register pages (20_registers.md and the Registers section of every chapter): which page
lies at an address (R467–R473), its header (R449–R460), its fields by type (R10), and what each word reads as. -/

namespace Sys2Proof.Machine

/-- A page that exists, with its instance, ring, die, channel, module, calendar or cluster. -/
inductive Page where
  | glb | tck | pwr | thm | ent | cfg | err | tel | calCtl | ptp | avsDev
  | hbcI (i : Nat) | ktpI (i : Nat) | pwrI (i : Nat) | hdg (i : Nat) | rng (r : Nat)
  | sup (n : Nat) | pci (n : Nat) | eth (n : Nat) | ktp (n : Nat) | avs (d : Nat) | sns (c : Nat)
  | d2d (m : Nat) | cal (c : Nat) | xbr (k : Nat) | hbc (d : Nat)
  | clu (c : Nat) | mex (c : Nat) | spg (c : Nat) | sua (c : Nat) | drw (c : Nat) | cnt (c : Nat)
  | absent
  deriving DecidableEq, Repr

/-! ### The PF map (R467–R471) -/

/-- Table — Global pages. -/
def globalPage (g : Nat) : Page :=
  match g with
  | 0 => .glb | 1 => .tck | 2 => .pwr | 3 => .thm | 4 => .ent | 5 => .cfg | 6 => .err | 7 => .tel | 8 => .calCtl
  | 9 => .ptp | 10 => .avsDev
  | _ => if g < 64 then .absent else if g < 128 then .hbcI (g - 63) else if g < 192 then .ktpI (g - 127) else .pwrI (g - 191)

/-- Table — Port-die pages. -/
def portPage (n p : Nat) : Page :=
  match p with
  | 0 => .sup n | 1 => .pci n | 2 => .eth n | 3 => .ktp n | 4 => .avs (8 + n)
  | 13 => .cal (84 + n) | 14 => .cal (92 + n)
  | 15 => if n < 2 then .cal (88 + 2 * n) else .absent
  | 16 => if n < 2 then .cal (89 + 2 * n) else .absent
  | 17 => if n = 0 then .cal 96 else .absent
  | _ => if 5 ≤ p ∧ p ≤ 8 then .sns (4 * n + (p - 5)) else if 9 ≤ p ∧ p ≤ 12 then .d2d ((10 + n) * 4 + (p - 9)) else .absent

/-- The edge to the east or south of a compute die (R72, R470). -/
def eastEdge (d : Nat) : Option Nat := if d % 4 = 3 then none else some (if d < 4 then d else d - 1)
def southEdge (d : Nat) : Option Nat := if d < 4 then some (6 + d) else none

/-- Table — Compute-die pages. -/
def diePage (d p : Nat) : Page :=
  if p < 2 then .xbr (2 * d + p)
  else if p = 2 then .hbc d
  else if p = 3 then .avs d
  else if p = 4 then .cal d
  else if p < 7 then .cal (8 + 2 * d + (p - 5))
  else if 8 ≤ p ∧ p < 12 then (match eastEdge d with | some e => .d2d (e * 4 + (p - 8)) | none => .absent)
  else if 12 ≤ p ∧ p < 16 then (match southEdge d with | some e => .d2d (e * 4 + (p - 12)) | none => .absent)
  else if 16 ≤ p ∧ p < 22 then (match eastEdge d with | some e => .cal (24 + e * 6 + (p - 16)) | none => .absent)
  else if 22 ≤ p ∧ p < 28 then (match southEdge d with | some e => .cal (24 + e * 6 + (p - 22)) | none => .absent)
  else .absent

/-- The pages of a cluster in their order (R471). -/
def clusterPage (c p : Nat) : Page :=
  match p with
  | 0 => .clu c | 1 => .mex c | 2 => .spg c | 3 => .sua c | 4 => .drw c | 5 => .cnt c | _ => .absent

/-- The page at a page number, PF BAR0 address ÷ 4 KiB (R467). -/
def pageOf (pg : Nat) : Page :=
  if pg < 0x100 then globalPage pg
  else if pg < 0x140 then .hdg (pg - 0x100 + 1)
  else if pg < 0x200 then .absent
  else if pg < 0x300 then .rng (pg - 0x200)
  else if pg < 0x400 then portPage ((pg - 0x300) / 64) (pg % 64)
  else if pg < 0x600 then diePage ((pg - 0x400) / 64) (pg % 64)
  else if pg < 0x800 then .absent
  else if pg < 0x1800 then clusterPage ((pg - 0x800) / 8) (pg % 8)
  else .absent

/-- Page type and block instance of PG_ID (R449; Table — Page index). -/
def pageId : Page → Nat × Nat
  | .glb => (0x01, 0) | .tck => (0x02, 0) | .sup n => (0x03, n) | .pwr => (0x04, 0) | .pwrI i => (0x04, 0x100 + i)
  | .thm => (0x05, 0) | .ent => (0x06, 0) | .cfg => (0x07, 0) | .err => (0x08, 0) | .tel => (0x09, 0)
  | .calCtl => (0x0A, 0) | .cal c => (0x0A, calClass c * 256 + calUnit c)
  | .hdg i => (0x10, i) | .rng r => (0x11, r) | .pci n => (0x20, n) | .eth n => (0x21, n)
  | .ktp n => (0x22, n) | .ktpI i => (0x22, 0x100 + i) | .sns c => (0x23, c) | .ptp => (0x24, 0)
  | .hbc d => (0x30, d) | .hbcI i => (0x30, 0x100 + i) | .d2d m => (0x31, m) | .xbr k => (0x32, k)
  | .avs d => (0x33, d) | .avsDev => (0x33, 0x100)
  | .clu c => (0x40, c) | .mex c => (0x41, c) | .spg c => (0x42, c) | .sua c => (0x43, c) | .drw c => (0x44, c)
  | .cnt c => (0x45, c) | .absent => (0, 0)

/-- PG_CAP: TICKCNT, INJECT, VFVIS, INSTPAGE and STAGED (R451). -/
def pageCap (p : Page) : Nat :=
  let t := (pageId p).1
  let clusterPg := decide (0x40 ≤ t ∧ t ≤ 0x45)
  let instPg := match p with | .hdg _ | .hbcI _ | .ktpI _ | .pwrI _ => true | _ => false
  let vis := instPg || clusterPg || t == 1 || t == 2 || t == 0x11 || t == 0x23
  let staged := match p with | .tck | .cal _ | .sua _ => true | _ => false
  b2n (clusterPg || t == 9) + 2 * b2n (t != 1 && t != 7 && t != 9) + 4 * b2n vis + 8 * b2n instPg + 16 * b2n staged

/-- PG_ERRINJ is implemented (R451 INJECT). -/
def canInject (p : Page) : Bool := bit (pageCap p) 1

/-- PG_OWN.OWNER (R457). -/
def pageOwner (s : State) : Page → Nat
  | .hdg i | .hbcI i | .ktpI i | .pwrI i => i
  | .rng r => (ringAt s r).owner
  | .sns c => (snsAt s c).owner
  | .clu c | .mex c | .spg c | .sua c | .drw c | .cnt c => ownerOf s c
  | _ => 0

/-! ### The fields of a word by type (R10) -/

/-- A row of a register table: `n` words from offset `off`, `step` apart; the bits of each type, and those that a VF may write
(R474). -/
structure Reg where
  off : Nat
  n : Nat := 1
  step : Nat := 4
  rw : Nat := 0
  ro : Nat := 0
  w1c : Nat := 0
  wo : Nat := 0
  rc : Nat := 0
  vf : Nat := 0
  deriving DecidableEq, Repr

/-- A whole word. -/
def wAll : Nat := 0xFFFFFFFF

/-- Table — Common header. -/
def headerRegs (inject : Bool) : List Reg :=
  [ { off := 0x00, ro := 0xFFFFFF00 }, { off := 0x04, ro := 0x1F }, { off := 0x08, rw := 1, wo := 2 }, { off := 0x0C, ro := 0xF },
    { off := 0x10, w1c := 0xC000FFFF, vf := 0xC000FFFF }, { off := 0x14, rw := wAll },
    { off := 0x18, rw := if inject then 0xFFFFFF else 0, wo := if inject then 0x80000000 else 0 },
    { off := 0x1C, rw := 0x80000000, ro := 0xFF }, { off := 0x20, n := 8, ro := wAll } ]

def glbRegs : List Reg :=
  [ { off := 0x40, n := 2, ro := wAll }, { off := 0x48, ro := 0xFF }, { off := 0x4C, ro := 0x1F }, { off := 0x50, ro := 0xFFFF },
    { off := 0x54, rw := 4, wo := 3 }, { off := 0x58, ro := wAll }, { off := 0x5C, ro := 0x013F3F3F }, { off := 0x60, ro := 0xFFF },
    { off := 0x100, n := 16, ro := wAll }, { off := 0x140, n := 8, ro := wAll } ]

def tckRegs : List Reg :=
  [ { off := 0x40, rw := 0x3FF3 }, { off := 0x44, rw := 0x1FFFF }, { off := 0x48, wo := 3 }, { off := 0x4C, ro := 0xFF1F },
    { off := 0x50, n := 2, ro := wAll }, { off := 0x58, n := 2, rw := wAll }, { off := 0x60, ro := wAll }, { off := 0x64, rw := wAll },
    { off := 0x68, rw := 0xFFFF0001 }, { off := 0x6C, ro := 0x01FFFF03 }, { off := 0x70, n := 2, ro := wAll },
    { off := 0x78, ro := 0xF }, { off := 0x80, n := 2, ro := wAll },
    { off := 0x400, n := 64, step := 16, ro := wAll }, { off := 0x404, n := 64, step := 16, ro := wAll },
    { off := 0x408, n := 64, step := 16, ro := wAll }, { off := 0x40C, n := 64, step := 16, ro := 0x1F } ]

def pwrRegs : List Reg :=
  [ { off := 0x40, ro := 0xFF }, { off := 0x44, ro := wAll }, { off := 0x48, ro := 0x7FF }, { off := 0x4C, ro := wAll },
    { off := 0x50, rw := 0x07FF0007 }, { off := 0x54, wo := 1 }, { off := 0x58, ro := 0xF3 }, { off := 0x5C, n := 2, ro := wAll },
    { off := 0x64, ro := 0xFF }, { off := 0x68, rw := 0x7777 }, { off := 0x6C, ro := 3 }, { off := 0x70, n := 4, ro := wAll } ]

def thmRegs : List Reg :=
  [ { off := 0x40, ro := 1 }, { off := 0x44, n := 2, ro := 0xFFFFF }, { off := 0x4C, rw := 0xFFFF, ro := 0xFF0000 },
    { off := 0x50, rw := 0xFFFF }, { off := 0x54, ro := 0xFFFF }, { off := 0x100, n := 20, ro := 0xFFFF } ]

def entRegs : List Reg :=
  [ { off := 0x40, ro := 0x3FF }, { off := 0x44, wo := 0xF }, { off := 0x48, ro := 0xFF }, { off := 0x4C, rw := 0x3F3F },
    { off := 0x50, rc := wAll }, { off := 0x54, ro := 0xFFFF }, { off := 0x58, rc := wAll } ]

def cfgRegs : List Reg :=
  [ { off := 0x40, ro := 0x777 }, { off := 0x44, n := 2, ro := wAll }, { off := 0x4C, ro := 7 }, { off := 0x50, rw := 0x0FFFFFFF },
    { off := 0x54, wo := 3 }, { off := 0x58, ro := 1, w1c := 2 }, { off := 0x400, n := 512, rw := wAll } ]

def errRegs : List Reg :=
  [ { off := 0x40, ro := 0x7FF }, { off := 0x44, rw := 0x7FF }, { off := 0x48, ro := wAll }, { off := 0x4C, rc := wAll },
    { off := 0x60, n := 8, ro := wAll } ]

def telRegs : List Reg :=
  [ { off := 0x40, rw := 0x1FFFF }, { off := 0x44, ro := 1 }, { off := 0x48, n := 2, ro := wAll }, { off := 0x50, ro := 0xFFFF },
    { off := 0x100, n := 12, ro := 0xFFFF }, { off := 0x140, n := 8, ro := 0xFFFF }, { off := 0x200, n := 64, ro := 0xFFFF },
    { off := 0x300, n := 64, ro := wAll } ]

def calCtlRegs : List Reg :=
  [ { off := 0x40, rw := 0xFF }, { off := 0x44, rw := 0x7FF }, { off := 0x48, n := 2, ro := 0x7FF }, { off := 0x50, ro := 0x00FF0F0F } ]

def calRegs : List Reg :=
  [ { off := 0x40, ro := 0xFFFF0FFF }, { off := 0x44, ro := 2, wo := 1 }, { off := 0x48, n := 2, ro := 0x7FF }, { off := 0x50, ro := 0x3FF },
    { off := 0x400, n := 256, rw := wAll } ]

def ptpRegs : List Reg := [ { off := 0x40, rw := 0x3F7F }, { off := 0x44, ro := 0xF }, { off := 0x48, n := 4, ro := wAll } ]

def avsDevRegs : List Reg := [ { off := 0x40, ro := 0xF3 }, { off := 0x44, rw := 0xF }, { off := 0x48, rc := wAll }, { off := 0x4C, rw := 0xFFFF } ]

def avsRegs : List Reg :=
  [ { off := 0x40, ro := 0xFFF }, { off := 0x44, rw := 0x0FFF0FFF }, { off := 0x48, ro := 7 }, { off := 0x4C, rc := wAll },
    { off := 0x50, rw := 0xFFFF }, { off := 0x54, rc := wAll } ]

/-- The host driver clears DATALOSS (R101); management alone writes segment entries (R264). -/
def hbcIRegs : List Reg :=
  [ { off := 0x40, ro := 0x7F01 }, { off := 0x44, ro := wAll }, { off := 0x48, ro := 0xE, w1c := 1, vf := 1 }, { off := 0x4C, n := 2, ro := wAll },
    { off := 0x400, n := 64, step := 16, rw := 0x87FFFFFF }, { off := 0x404, n := 64, step := 16, rw := 0x007FFFFF },
    { off := 0x408, n := 64, step := 16, rw := 0xFFFF }, { off := 0x800, n := 16, step := 16, ro := 0x87FFFFFF },
    { off := 0x804, n := 16, step := 16, ro := 0x07FFFFFF }, { off := 0x808, n := 16, step := 16, ro := 0x07FFFFFF },
    { off := 0x80C, n := 16, step := 16, ro := 0xFFFF } ]

def hbcRegs : List Reg :=
  [ { off := 0x40, ro := 0xFFF }, { off := 0x44, n := 2, ro := wAll }, { off := 0x4C, rw := 0xFFFF }, { off := 0x50, ro := 0x7FFF },
    { off := 0x54, n := 2, ro := wAll }, { off := 0x5C, ro := 0x7FFF }, { off := 0x60, n := 2, ro := wAll } ]

/-- The host driver opens and closes channels (R313). -/
def ktpIRegs : List Reg :=
  [ { off := 0x40, n := 4, rc := wAll },
    { off := 0x400, n := 64, step := 32, rw := 0x0FFFFF07, ro := 0x18, vf := 0x0FFFFF07 },
    { off := 0x404, n := 64, step := 32, rw := 0x7F, vf := 0x7F }, { off := 0x408, n := 64, step := 32, rw := wAll, vf := wAll },
    { off := 0x40C, n := 64, step := 32, rw := wAll, vf := wAll }, { off := 0x410, n := 64, step := 32, rw := wAll, vf := wAll },
    { off := 0x418, n := 64, step := 32, rw := wAll, vf := wAll }, { off := 0x41C, n := 64, step := 32, rw := wAll, vf := wAll } ]

def ktpRegs : List Reg :=
  [ { off := 0x40, rw := 0xFFFF }, { off := 0x44, ro := 0xFFFFFF }, { off := 0x100, n := 9, wo := wAll }, { off := 0x124, wo := 0x7F },
    { off := 0x400, n := 64, step := 48, rw := 0x07FFFFFF }, { off := 0x404, n := 64, step := 48, rw := wAll },
    { off := 0x408, n := 64, step := 48, rw := wAll }, { off := 0x40C, n := 64, step := 48, rw := wAll },
    { off := 0x410, n := 64, step := 48, rw := 0xFFFF }, { off := 0x414, n := 64, step := 48, rw := wAll },
    { off := 0x418, n := 64, step := 48, rw := wAll }, { off := 0x41C, n := 64, step := 48, rw := wAll },
    { off := 0x420, n := 64, step := 48, rw := wAll }, { off := 0x424, n := 64, step := 48, rw := 1, ro := 6 },
    { off := 0x428, n := 64, step := 48, ro := wAll }, { off := 0x42C, n := 64, step := 48, ro := wAll } ]

def pwrIRegs : List Reg :=
  [ { off := 0x40, n := 2, rw := wAll, vf := wAll }, { off := 0x48, ro := 3, wo := 0x10, vf := 0x10 } ]

def hdgRegs : List Reg :=
  [ { off := 0x40, ro := 7 }, { off := 0x44, ro := 0x1F3F0F1F }, { off := 0x48, ro := 0x3D }, { off := 0x4C, ro := 0x7FF },
    { off := 0x50, n := 9, ro := wAll }, { off := 0x74, n := 3, rc := wAll } ]

/-- Management alone writes RNG_CFG.OWNER (R346). -/
def rngRegs : List Reg :=
  [ { off := 0x40, rw := 0x00FFFF3F, vf := 0x00FF003F }, { off := 0x44, rw := 0x13F, vf := 0x13F },
    { off := 0x48, n := 2, rw := wAll, vf := wAll }, { off := 0x50, wo := 0xFFFF, vf := 0xFFFF }, { off := 0x54, n := 3, ro := 0xFFFF },
    { off := 0x60, ro := 0xF } ]

def supRegs : List Reg :=
  [ { off := 0x40, ro := 0xF }, { off := 0x44, ro := wAll }, { off := 0x48, ro := 0xFF }, { off := 0x4C, ro := wAll }, { off := 0x50, wo := 1 } ]

def pciRegs : List Reg :=
  [ { off := 0x40, ro := 0x7FF }, { off := 0x44, ro := 2, wo := 1 }, { off := 0x48, rw := 0xFFFF }, { off := 0x4C, n := 2, rc := wAll },
    { off := 0x54, ro := 0x7FF }, { off := 0x58, rc := wAll }, { off := 0x400, n := 65, rw := 0x7FF, ro := 0x07FF0000 },
    { off := 0x604, n := 64, rc := wAll } ]

def ethRegs : List Reg :=
  [ { off := 0x40, rw := 7 }, { off := 0x44, ro := 0xF }, { off := 0x48, rw := wAll }, { off := 0x4C, rw := 0xFFFF },
    { off := 0x50, n := 6, rw := wAll }, { off := 0x68, n := 3, rc := wAll } ]

def snsRegs : List Reg :=
  [ { off := 0x40, rw := 0xFF, ro := 0x1FFFFF00 }, { off := 0x44, ro := 0xFFFFFF }, { off := 0x48, n := 4, ro := wAll },
    { off := 0x58, ro := 0xFFFF }, { off := 0x5C, n := 2, ro := wAll }, { off := 0x64, ro := 0x7FFFFF }, { off := 0x68, n := 6, ro := wAll } ]

def d2dRegs : List Reg :=
  [ { off := 0x40, ro := 0x7F }, { off := 0x44, ro := 0x3F }, { off := 0x48, rw := 0xFFFF }, { off := 0x4C, n := 2, ro := wAll } ]

def xbrRegs : List Reg := [ { off := 0x40, ro := wAll }, { off := 0x44, ro := 0xFF }, { off := 0x48, ro := 0x3F } ]

def cluRegs : List Reg :=
  [ { off := 0x40, ro := 0xF0F1F }, { off := 0x44, ro := 0xFF0F }, { off := 0x48, ro := 0x1F }, { off := 0x4C, ro := 0xFFFFFF }, { off := 0x50, ro := 0x7F7F } ]

def mexRegs : List Reg :=
  [ { off := 0x40, ro := 0x3F }, { off := 0x44, w1c := 0x1FF, vf := 0x1FF }, { off := 0x48, ro := 0x1FF }, { off := 0x4C, ro := 0xFFFF }, { off := 0x50, ro := 0x3FF } ]

def spgRegs : List Reg :=
  [ { off := 0x40, ro := 0x1FFF0007 }, { off := 0x44, ro := 0xFFFF }, { off := 0x48, w1c := 0xF, vf := 0xF }, { off := 0x4C, ro := 0x3F },
    { off := 0x400, n := 64, step := 8, ro := 0x7F7F7F7F }, { off := 0x404, n := 64, step := 8, ro := 0x7F } ] ++
  (List.range 7).map fun k => { off := 0x100 + 4 * k, n := 16, step := 32, ro := wAll }

def suaRegs : List Reg :=
  [ { off := 0x40, ro := 0x1F }, { off := 0x44, ro := 0xFF }, { off := 0x48, w1c := 7, vf := 7 }, { off := 0x4C, ro := 0x7FFF },
    { off := 0x50, n := 6, ro := wAll }, { off := 0x80, n := 8, ro := wAll }, { off := 0x100, n := 16, ro := wAll } ]

/-- Table — SUA annealing registers, on the lead cluster's page. -/
def annRegs : List Reg :=
  [ { off := 0x200, rw := 0xFF03, wo := 0x80000000, vf := 0x8000FF03 }, { off := 0x204, n := 7, rw := wAll, vf := wAll },
    { off := 0x220, rw := 0x00FF7FFF, vf := 0x00FF7FFF }, { off := 0x224, n := 2, rc := wAll }, { off := 0x22C, n := 4, ro := wAll },
    { off := 0x23C, ro := 0x1F }, { off := 0x240, n := 2, rw := wAll, vf := wAll }, { off := 0x248, rw := 0x1F, vf := 0x1F },
    { off := 0x24C, ro := 0xFFFFF }, { off := 0x250, rw := 0xFFFFF, vf := 0xFFFFF }, { off := 0x254, rc := wAll },
    { off := 0x258, ro := 0x00FF0F0F }, { off := 0x25C, n := 3, rc := wAll }, { off := 0x268, ro := 0x3FFF },
    { off := 0x400, n := 256, rw := wAll, vf := wAll } ]

def drwRegs : List Reg := [ { off := 0x40, ro := 0xF1F }, { off := 0x44, ro := 1 }, { off := 0x48, w1c := 0x3F, vf := 0x3F } ]

def cntRegs : List Reg :=
  [ { off := 0x40, ro := 0x0FFFFF33 }, { off := 0x44, n := 2, ro := wAll }, { off := 0x4C, rc := wAll }, { off := 0x100, n := 20, ro := wAll },
    { off := 0x414, n := 64, step := 32, ro := wAll }, { off := 0x418, n := 64, step := 32, ro := 0xFF } ] ++
  (List.range 5).map fun k => { off := 0x400 + 4 * k, n := 64, step := 32, ro := wAll }

/-- The instance whose lead cluster this is: the one cluster whose page carries the annealing registers. -/
def leadInst (s : State) (c : Nat) : Option Nat :=
  let h := ownerOf s c
  if h ≠ 0 ∧ leadOf (instAt s h) = c then some h else none

/-- The register table of a page. -/
def bodyRegs (s : State) : Page → List Reg
  | .glb => glbRegs | .tck => tckRegs | .pwr => pwrRegs | .thm => thmRegs | .ent => entRegs | .cfg => cfgRegs | .err => errRegs
  | .tel => telRegs | .calCtl => calCtlRegs | .ptp => ptpRegs | .avsDev => avsDevRegs | .hbcI _ => hbcIRegs | .ktpI _ => ktpIRegs
  | .pwrI _ => pwrIRegs | .hdg _ => hdgRegs | .rng _ => rngRegs | .sup _ => supRegs | .pci _ => pciRegs | .eth _ => ethRegs
  | .ktp _ => ktpRegs | .avs _ => avsRegs | .sns _ => snsRegs | .d2d _ => d2dRegs | .cal _ => calRegs | .xbr _ => xbrRegs
  | .hbc _ => hbcRegs | .clu _ => cluRegs | .mex _ => mexRegs | .spg _ => spgRegs
  | .sua c => if (leadInst s c).isSome then suaRegs ++ annRegs else suaRegs
  | .drw _ => drwRegs | .cnt _ => cntRegs | .absent => []

/-- The row that holds the word at an offset; none where the page has only RSV bits there. -/
def regAt (s : State) (p : Page) (off : Nat) : Option Reg :=
  (if off < 0x40 then (match p with | .absent => [] | _ => headerRegs (canInject p)) else bodyRegs s p).find? fun r =>
    decide (r.off ≤ off ∧ (off - r.off) % r.step = 0 ∧ (off - r.off) / r.step < r.n)

/-! ### What a word reads as -/

/-- Word `k` (0 low, 1 high) of a 64-bit value. -/
def half (v : Nat) (k : Nat) : Nat := v / 2 ^ (32 * k) % 2 ^ 32

/-- GLB: AVAIL and DIES stand from SELFTEST on. -/
def glbValue (s : State) (off : Nat) : Nat :=
  let g := s.glb
  match off with
  | 0x40 => 0x31355A57 | 0x44 => 0x00412D32 | 0x48 => 0xB0
  | 0x4C => g.stage + 16 * b2n g.ready | 0x50 => g.bootMs | 0x54 => 4 * b2n g.fwSel | 0x58 => g.fwVersion.toNat
  | 0x5C => g.svn + g.fused0 * 2 ^ 8 + g.fused1 * 2 ^ 16 + b2n g.slot * 2 ^ 24
  | 0x60 => g.diesC.toNat + g.diesP.toNat * 256
  | _ =>
    if off < 0x140 then
      if 5 ≤ g.stage ∧ g.stage ≤ 7 then
        ((List.range 32).map fun n => b2n (clusterAt s ((off - 0x100) / 4 * 32 + n)).avail * 2 ^ n).sum
      else 0
    else ((List.range 8).map fun r => repEntry s ((off - 0x140) / 4) r * 16 ^ r).sum

/-- TCK: staged fields read the last value written (R491); TCK_PHASE.OFFSET_US is a free value. -/
def tckValue (s : State) (off : Nat) : Nat :=
  let k := s.tck
  match off with
  | 0x40 => match k.cfgStaged with | some w => w.toNat | none => k.src.toNat + k.slew * 16
  | 0x44 => k.periodStaged.getD k.period
  | 0x4C => b2n k.running + 2 * b2n k.locked + 4 * b2n k.holdover + 8 * b2n k.slewing + 16 * b2n k.masterP1 +
      k.followerHold.toNat * 256
  | 0x50 => half k.devTick.toNat 0 | 0x54 => half k.devTick.toNat 1
  | 0x58 => half (t0Reads k).toNat 0 | 0x5C => half (t0Reads k).toNat 1
  | 0x60 => ofSigned 32 k.phErr | 0x64 => (k.inofsStaged.getD k.inofs).toNat
  | 0x68 => b2n k.outEn + k.outDiv.toNat * 2 ^ 16
  | 0x6C => (match k.phase with | .openP => 0 | .work => 1 | .coppice => 2 | .commit => 3) + (Config.freeWord s.fresh).toNat % 2 ^ 17 * 256
  | 0x70 => workNs k.period | 0x74 => coppiceNs k.period
  | 0x78 => b2n (k.bgScrub != 0) + 2 * b2n k.bgTrim + 4 * b2n k.bgFlash + 8 * b2n k.bgTel
  | 0x80 => half k.pps.toNat 0 | 0x84 => half k.pps.toNat 1
  | _ =>
    let i := instAt s ((off - 0x400) / 16 + 1)
    match off % 16 with
    | 0 => half i.htick.toNat 0 | 4 => half i.htick.toNat 1 | 8 => i.lag.toNat
    | _ => i.outcome + i.consec * 4 + b2n i.replaying * 16

def pwrValue (s : State) (off : Nat) : Nat :=
  let p := s.pwr
  match off with
  | 0x40 => b2n p.inputOk + 2 * b2n p.sagWarn + 4 * b2n p.holdOk + 8 * b2n p.charging + 16 * p.holdClass.toNat + 128 * b2n p.saving
  | 0x44 => p.vin.toNat + p.vhold.toNat * 2 ^ 16 | 0x48 => p.pin | 0x4C => p.holdC.toNat + p.holdEsr.toNat * 2 ^ 16
  | 0x50 => b2n p.noHoldOk + 2 * b2n p.leakAct + 4 * b2n p.shdnEn + p.incap * 2 ^ 16
  | 0x58 => b2n p.saveValid + 2 * b2n p.fromP1 + 16 * p.cause | 0x5C => p.saveSeq.toNat
  | 0x60 => ((List.range 16).map fun n => (mget p.fld 0 n).toNat * 4 ^ n).sum
  | 0x64 => p.slotId.toNat + 16 * p.strapOpen.toNat | 0x68 => p.trig.toNat | 0x6C => (mget p.fld 0 16).toNat
  | 0x54 => 0
  | _ => (mget p.trigTs 0 ((off - 0x70) / 4)).toNat

def thmValue (s : State) (off : Nat) : Nat :=
  let t := s.thm
  match off with
  | 0x40 => b2n t.override | 0x44 => t.warnMap.toNat | 0x48 => t.critMap.toNat | 0x4C => t.warn + t.crit * 256 + 115 * 2 ^ 16
  | 0x50 => t.coolWarn + t.coolTrip * 256 | 0x54 => ofSigned 16 t.coolT
  | _ => ofSigned 16 (mget t.temps 0 ((off - 0x100) / 4))

def entValue (s : State) (off : Nat) : Nat :=
  let e := s.ent
  match off with
  | 0x40 => e.ok.toNat + 16 * e.fail.toNat + 256 * b2n e.degraded + 512 * b2n e.keyDrbg | 0x48 => e.seedMap.toNat
  | 0x4C => let t := e.trimStaged.getD (e.trimLo, e.trimHi); ofSigned 6 t.1 + ofSigned 6 t.2 * 256
  | 0x50 => e.trimConf.toNat | 0x54 => e.noiseSub | 0x58 => e.seedMiss.toNat
  | _ => 0

def cfgValue (s : State) (off : Nat) : Nat :=
  let g := s.glb
  match off with
  | 0x40 => g.copy + 4 * b2n g.defaulted + 16 * g.aFail + 256 * g.bFail | 0x44 => g.check.toNat | 0x48 => g.gen.toNat
  | 0x4C => g.restore | 0x50 => g.flAddr.toNat | 0x54 => 0 | 0x58 => b2n g.flOp.isSome + 2 * b2n g.flRefused
  | _ => readLe g.flData (off - 0x400) 4

def errValue (s : State) (off : Nat) : Nat :=
  let e := s.errs
  match off with
  | 0x40 => e.head | 0x44 => e.tail | 0x48 => e.seq.toNat | 0x4C => e.lost.toNat
  | _ => match e.log.find? fun p => p.1 == e.tail with
    | some p => imgLe (errBytes p.2) (off - 0x60) 4
    | none => 0

def telValue (s : State) (off : Nat) : Nat :=
  let t := s.tel
  match off with
  | 0x40 => t.interval + 2 ^ 16 * b2n t.en | 0x44 => b2n t.pending | 0x48 => half t.snapTick.toNat 0 | 0x4C => half t.snapTick.toNat 1
  | 0x50 => t.coppices
  | _ =>
    if off < 0x140 then mget t.diePwr 0 ((off - 0x100) / 4)
    else if off < 0x200 then mget t.hbmPwr 0 ((off - 0x140) / 4)
    else if off < 0x300 then (instAt s ((off - 0x200) / 4 + 1)).telPwr
    else (instAt s ((off - 0x300) / 4 + 1)).telBusy

def calCtlValue (s : State) (off : Nat) : Nat :=
  let k := s.calCtl
  match off with
  | 0x40 => k.marginStaged.getD k.margin | 0x44 => k.pwrCap | 0x48 => k.pwrBase | 0x4C => pwrSum s
  | _ => k.reason + k.cls * 256 + k.unit * 2 ^ 16

/-- CAL resource page: reads of the table return the active one (R76). -/
def calValue (s : State) (c off : Nat) : Nat :=
  let k := calAt s c
  match off with
  | 0x40 => calClass c + calUnit c * 16 + slotNs (calClass c) * 2 ^ 16 | 0x44 => 2 * b2n k.pending | 0x48 => mgMin (calClass c)
  | 0x4C => 1024 - k.table.length | 0x50 => k.slotIdx
  | _ => ((List.range 4).map fun b => ownerIn k.table (off - 0x400 + b) * 256 ^ b).sum

def ptpValue (s : State) (off : Nat) : Nat :=
  let p := s.ptp
  match off with
  | 0x40 => p.domain.toNat + (p.portStaged.getD p.port).toNat * 256 + p.transport.toNat * 2 ^ 10 + 2 ^ 12 * b2n p.oneStep + 2 ^ 13 * b2n p.rxOnly
  | 0x44 => p.state.toNat | 0x48 => ofSigned 32 p.offset | 0x4C => ofSigned 32 p.delay | 0x50 => half p.gmId.toNat 0
  | _ => half p.gmId.toNat 1

def avsDevValue (s : State) (off : Nat) : Nat :=
  let a := s.avsDev
  match off with
  | 0x40 => a.grade + a.effFast * 16 + a.effSlow * 64 | 0x44 => let e := a.genvStaged.getD (a.genvFast, a.genvSlow); e.1 + 4 * e.2
  | 0x48 => a.gconf.toNat | _ => a.gup

def avsValue (s : State) (d off : Nat) : Nat :=
  let a := avsAt s d
  match off with
  | 0x40 => a.vnow
  | 0x44 => let e := a.staged.getD (a.vmin, a.vmax); e.1 + e.2 * 2 ^ 16
  | 0x48 => b2n (decide (a.vnow = a.vmin)) + 2 * b2n (decide (a.vnow = a.vmax)) + 4 * b2n a.marginLow | 0x4C => a.vconf.toNat
  | 0x50 => let e := a.eqStaged.getD (a.eqLo, a.eqHi); e.1 + e.2 * 256
  | _ => a.eqConf.toNat

/-- A word of segment entry `n`: VALID reads 0 from a write that clears it (R264, R491). -/
def segValue (i : Inst) (n w : Nat) : Nat :=
  let v := (mget i.segs 0 (n * 4 + w)).toNat
  if w = 0 ∧ i.segClear.contains n then v % 2 ^ 31 else v

/-- A word of window entry `n` (Table — Window entry). -/
def winValue (i : Inst) (n w : Nat) : Nat :=
  match i.wins[n]? with
  | some x => match w with | 0 => x.v + 2 ^ 31 | 1 => x.b0 | 2 => x.b1 | _ => x.len - 1
  | none => 0

def hbcIValue (s : State) (id off : Nat) : Nat :=
  let i := instAt s id
  match off with
  | 0x40 => b2n (!i.zeroing.isEmpty) + i.zeroing.length * 256 | 0x44 => i.zeroRemain | 0x48 => b2n i.dataLoss + i.lossKind * 2
  | 0x4C => half i.lossAddr.toNat 0 | 0x50 => half i.lossAddr.toNat 1
  | _ => if off < 0x800 then segValue i ((off - 0x400) / 16) (off % 16 / 4) else winValue i ((off - 0x800) / 16) (off % 16 / 4)

def hbcValue (s : State) (d off : Nat) : Nat :=
  let k := stackAt s d
  match off with
  | 0x40 => b2n k.trained + 2 * b2n k.migrating.isSome + 4 * k.migPc + ones64 k.retMap * 256 + 2 ^ 11 * b2n k.marginExh
  | 0x44 => half k.retMap.toNat 0 | 0x48 => half k.retMap.toNat 1 | 0x4C => k.ceThr | 0x50 => k.scrubPos / 32768
  | 0x54 => k.scrubPass.toNat | 0x58 => k.migPos | 0x5C => framesFree s d | 0x60 => half k.lastUe.toNat 0 | _ => half k.lastUe.toNat 1

/-- KTP instance page: a staged channel word reads as written (R491). -/
def ktpIValue (s : State) (id off : Nat) : Nat :=
  let i := instAt s id
  match off with
  | 0x40 => i.sendLate.toNat | 0x44 => i.retx.toNat | 0x48 => i.authFail.toNat | 0x4C => i.dropped.toNat
  | _ =>
    let n := (off - 0x400) / 4
    let cur := mget i.chans 0 n
    (match mget i.chanStaged none n with
      | some v => v ||| (cur &&& ~~~(chanMask (n % 8)))
      | none => cur).toNat

def ktpValue (s : State) (n off : Nat) : Nat :=
  let k := ktpAt s n
  if off = 0x40 then k.udpPort.toNat else if off = 0x44 then k.storeFree else if off < 0x400 then 0
  else
    let f := (off - 0x400) / 48
    match (off - 0x400) % 48 / 4 with
    | 2 => ((flowXAt k f).staged.getD (mget k.flows 0 (f * 12 + 2))).toNat
    | 10 => half (flowXAt k f).txctr.toNat 0
    | 11 => half (flowXAt k f).txctr.toNat 1
    | w => (mget k.flows 0 (f * 12 + w)).toNat

def pwrIValue (s : State) (id off : Nat) : Nat :=
  let i := instAt s id
  match off with | 0x40 => half i.keepSrc.toNat 0 | 0x44 => half i.keepSrc.toNat 1 | _ => i.keepSts

def hdgValue (s : State) (id off : Nat) : Nat :=
  let i := instAt s id
  match off with
  | 0x40 => stateCode i.st | 0x44 => i.x0 + i.y0 * 256 + i.w * 2 ^ 16 + i.h * 2 ^ 24
  | 0x48 => b2n i.borrow + 4 * i.gradeFast + 16 * i.gradeSlow | 0x4C => i.budget | 0x50 => i.incarn.toNat
  | 0x74 => i.wallIn.toNat | 0x78 => i.wallOut.toNat | 0x7C => i.borrowSlots.toNat
  | _ => i.slices.toNat / 2 ^ (32 * ((off - 0x54) / 4)) % 2 ^ 32

def rngValue (s : State) (r off : Nat) : Nat :=
  let x := ringAt s r
  match off with
  | 0x40 => b2n x.enable + 2 * b2n x.kind + 4 * x.log2 + x.owner * 256 + x.cq * 2 ^ 16 | 0x44 => x.vector + 256 * b2n x.irqMode
  | 0x48 => half x.base.toNat 0 | 0x4C => half x.base.toNat 1 | 0x54 => x.head | 0x58 => x.tail | 0x5C => x.snap
  | 0x60 => b2n (ringActive s r x.kind) + 2 * b2n x.fenced + 4 * b2n x.cqWait + 8 * b2n x.phase
  | _ => 0

def supValue (s : State) (n off : Nat) : Nat :=
  let x := supAt s n
  match off with
  | 0x40 => supRole s n + 4 * b2n (decide (n = primarySup s)) + 8 * b2n x.noQuorum | 0x44 => x.term.toNat
  | 0x48 => x.suspect.toNat + 16 * x.voted.toNat | 0x4C => x.mirSeq.toNat | _ => 0

/-- PCI: LINK and FAILCTL read 0 on P2 and P3. -/
def pciValue (s : State) (n off : Nat) : Nat :=
  let p := pciAt s n
  match off with
  | 0x40 => if n < 2 then p.speed.toNat + 16 * p.width.toNat + 512 * b2n p.up + 1024 * b2n (decide (n = serving s)) else 0
  | 0x44 => if n < 2 then 2 * b2n s.failedOver else 0
  | 0x48 => p.cplto.toNat | 0x4C => p.sinkB.toNat | 0x50 => p.sinkP.toNat
  | 0x54 => 1024 - ((List.range 65).map fun i => tagsAllotted s n i).sum | 0x58 => p.regDrop.toNat
  | _ => if off < 0x600 then tagsAllotted s n ((off - 0x400) / 4) + mget p.inUse 0 ((off - 0x400) / 4) * 2 ^ 16
         else (mget p.vfViol 0 ((off - 0x600) / 4)).toNat

def ethValue (s : State) (n off : Nat) : Nat :=
  let e := ethAt s n
  match off with
  | 0x40 => e.mode.toNat + 4 * b2n e.cr | 0x44 => e.up.toNat | 0x48 => half e.mac.toNat 0 | 0x4C => half e.mac.toNat 1
  | 0x50 => e.ipv4.toNat | 0x64 => e.honor.toNat + e.gen.toNat * 2 ^ 8 + e.xoff.toNat * 2 ^ 16 + e.xon.toNat * 2 ^ 24
  | 0x68 => e.fecCorr.toNat | 0x6C => e.fecUncorr.toNat | 0x70 => e.rxOther.toNat
  | _ => e.ipv6.toNat / 2 ^ (32 * ((off - 0x54) / 4)) % 2 ^ 32

def snsValue (s : State) (c off : Nat) : Nat :=
  let x := snsAt s c
  let b := x.bind
  match off with
  | 0x40 => x.owner + 2 ^ 8 * b2n x.bound + 2 ^ 9 * b2n b.framing + 2 ^ 10 * b2n b.partialPol + 2 ^ 11 * b2n b.ipv6 +
      2 ^ 12 * b2n b.vlanEn + 2 ^ 13 * b.port.toNat + 2 ^ 15 * b.subport.toNat + 2 ^ 17 * b.vid.toNat
  | 0x44 => b.udpPort.toNat + b.rate * 2 ^ 16
  | 0x58 => b.ftimeout | 0x5C => half b.ringBase.toNat 0 | 0x60 => half b.ringBase.toNat 1 | 0x64 => b.slotLen + b.slotsLog2 * 2 ^ 19
  | 0x68 => half b.statusLine.toNat 0 | 0x6C => half b.statusLine.toNat 1 | 0x70 => half b.consLine.toNat 0 | 0x74 => half b.consLine.toNat 1
  | 0x78 => x.prod.toNat | 0x7C => x.cons.toNat
  | _ => b.src.toNat / 2 ^ (32 * ((off - 0x48) / 4)) % 2 ^ 32

/-- Module 3 of a mesh edge and every module of a port edge carry the port spine (R128). -/
def carriesSpine (m : Nat) : Bool := decide (40 ≤ m ∨ m % 4 = 3)

def d2dValue (s : State) (m off : Nat) : Nat :=
  let d := d2dAt s m
  match off with
  | 0x40 => m / 4 + 16 * (m % 4) + 64 * b2n (carriesSpine m) | 0x44 => b2n d.up + 2 * b2n d.retraining + 4 * b2n d.degraded + 8 * d.spares
  | 0x48 => d.errThr | 0x4C => half d.badLane.toNat 0 | _ => half d.badLane.toNat 1

/-- Both half pages of a die report the same maps. -/
def xbrValue (s : State) (k off : Nat) : Nat :=
  let d := k / 2
  match off with
  | 0x40 => ((List.range 8).map fun r => repEntry s d r * 16 ^ r).sum
  | 0x44 => ((List.range 8).map fun r => b2n (decide (mget s.fabric.repPend 15 (d * 8 + r) ≠ 15)) * 2 ^ r).sum
  | _ => ((List.range 64).filter fun g => mget s.fabric.stitch false (d * 64 + g)).length

def cluValue (s : State) (c off : Nat) : Nat :=
  let k := clusterAt s c
  match off with
  | 0x40 => c % 32 + c / 32 * 256 + pcol s c * 2 ^ 16
  | 0x44 => b2n k.avail + 2 * b2n (decide (k.owner = 0)) + 4 * b2n k.dormant + 8 * b2n (decide (pcol s c ≠ c % 8)) + k.owner * 256
  | 0x48 => k.closed.toNat + 16 * b2n k.xbrClosed
  | 0x4C => ((List.range 4).map fun d => meshPad s c d * 16 ^ d).sum + xbarPad s c false * 2 ^ 16 + xbarPad s c true * 2 ^ 20
  | _ => k.ops.length + k.tagPeakPub * 256

def mexValue (s : State) (c off : Nat) : Nat :=
  let m := (clusterAt s c).me
  match off with
  | 0x40 => m.queue.length + 16 * b2n m.run.isSome + 32 * b2n m.kept | 0x44 => m.flags.toNat | 0x48 => m.tickFlags.toNat
  | 0x4C => m.illSeq | _ => m.lastE0.toNat

/-- Sprig `p` has ended every context that holds a program. -/
def sprigEnded (x : Sprig) : Bool :=
  x.prog != 0 && (List.finRange 4).all fun a => !(x.prog.getLsbD a.val) || (ctxAt x a).ended

def spgValue (s : State) (c off : Nat) : Nat :=
  let k := clusterAt s c
  match off with
  | 0x40 => k.layDepth + k.layPeriod * 2 ^ 16 | 0x44 => ((List.range 16).map fun p => b2n (sprigEnded (sprigAt k p)) * 2 ^ p).sum
  | 0x48 => k.spgFlags.toNat | 0x4C => match k.qleft with | some (p, x) => p.val + 16 * x.val | none => 0
  | _ =>
    if off < 0x400 then
      let n := (sprigAt k ((off - 0x100) / 32)).pub
      [n.busy, n.dep, n.q, n.port, n.switch, n.idle, n.rnd].getD (off % 32 / 4) 0
    else
      let n := (off - 0x400) / 8
      let x := ctxAt (sprigAt k (n / 4)) ⟨n % 4, Nat.mod_lt _ (by decide)⟩
      if off % 8 = 0 then x.qN.depth + x.qE.depth * 2 ^ 8 + x.qS.depth * 2 ^ 16 + x.qW.depth * 2 ^ 24 else x.qU.depth

/-- The annealing registers of a lead page; staged ones read the last value written (R219, R491). -/
def annValue (s : State) (h off : Nat) : Nat :=
  let i := instAt s h
  let a := i.ann
  let p := a.staged.getD a.par
  let pl : Option Plan := i.plan.map (·.plan)
  match off with
  | 0x200 => b2n a.wrap + 2 * b2n a.onBest + a.every * 256 | 0x204 => half a.base.toNat 0 | 0x208 => half a.base.toNat 1
  | 0x20C => p.tmin.toNat | 0x210 => p.tmax.toNat | 0x214 => p.floor.toNat | 0x218 => p.ceil.toNat | 0x21C => p.step.toNat
  | 0x220 => p.amin + p.wm1 * 2 ^ 16 | 0x224 => a.brConf.toNat | 0x228 => a.tClamp.toNat
  | 0x22C => half (best64 a.eBest).toNat 0 | 0x230 => half (best64 a.eBest).toNat 1
  | 0x234 => half (energy64 a.eCur).toNat 0 | 0x238 => half (energy64 a.eCur).toNat 1
  | 0x23C => (planCheckpoints i).length | 0x240 => half a.trBase.toNat 0 | 0x244 => half a.trBase.toNat 1 | 0x248 => a.trSize
  | 0x24C => a.trHead | 0x250 => a.trTail | 0x254 => a.trDrop.toNat
  | 0x258 => (match pl with | some l => (l.k - 1) + l.peers.length * 256 + l.smax * 2 ^ 16 | none => 0)
  | 0x25C => a.xMiss.toNat | 0x260 => a.xStale.toNat | 0x264 => a.xLate.toNat
  | 0x268 => (match pl with | some l => l.bestBase | none => 0)
  | _ => (mget p.sched 0x3F800000 ((off - 0x400) / 4)).toNat

def suaValue (s : State) (c off : Nat) : Nat :=
  let u := (clusterAt s c).su
  match off with
  | 0x40 => u.mode.toNat + 4 * b2n u.carry + 8 * u.sheets.toNat
  | 0x44 => b2n u.sweepRun.isSome + 2 * b2n u.bndRun.isSome + 4 * u.resident + 16 * u.queue.length
  | 0x48 => u.flags.toNat | 0x4C => u.spcnt | 0x50 => half u.enc.toNat 0 | 0x54 => half u.enc.toNat 1
  | 0x58 => half u.ordered.toNat 0 | 0x5C => half u.ordered.toNat 1 | 0x60 => half u.noiseSub.toNat 0 | 0x64 => half u.noiseSub.toNat 1
  | _ =>
    if off < 0x100 then half (mget u.sheetVa 0 ((off - 0x80) / 8)).toNat (off % 8 / 4)
    else if off < 0x200 then ((List.range 4).map fun b => ofSigned 8 (mget u.xexp 0 (off - 0x100 + b)) * 256 ^ b).sum
    else match leadInst s c with | some h => annValue s h off | none => 0

def drwValue (s : State) (c off : Nat) : Nat :=
  let d := (clusterAt s c).drw
  match off with
  | 0x40 => d.queue.length + 16 * b2n d.run.isSome + 256 * d.abuf.length | 0x44 => b2n d.aclass | _ => d.flags.toNat

def cntValue (s : State) (c off : Nat) : Nat :=
  let k := (clusterAt s c).cnt
  match off with
  | 0x40 => k.result + k.grade * 16 + k.firstType * 256 + k.firstOffset * 2 ^ 16 | 0x44 => k.expected.toNat | 0x48 => k.actual.toNat
  | 0x4C => k.divTicks.toNat
  | _ =>
    if off < 0x400 then mget k.rstallPub 0 ((off - 0x100) / 4)
    else
      let n := (off - 0x400) / 32
      let w := off % 32 / 4
      if w < 5 then mget k.enqPub 0 (n * 5 + w)
      else if w = 5 then ((List.range 4).map fun q => mget k.peakPub 0 (n * 5 + q) * 256 ^ q).sum
      else mget k.peakPub 0 (n * 5 + 4)

/-- The common header (R449–R460). -/
def headerValue (s : State) (pg : Nat) (p : Page) (off : Nat) : Nat :=
  let h := hdrAt s pg
  match off with
  | 0x00 => (pageId p).1 * 2 ^ 24 + (pageId p).2 * 2 ^ 12 + 0x100 | 0x04 => pageCap p | 0x08 => b2n h.freeze
  | 0x0C => 1 + 2 * b2n (h.err &&& ~~~h.errMsk != 0) + 4 * b2n h.freeze + 8 * (h.seq.toNat % 2)
  | 0x10 => h.err.toNat | 0x14 => h.errMsk.toNat
  | 0x18 => h.injCode.toNat + h.injTarget.toNat * 2 ^ 16 + 2 ^ 31 * b2n h.injGo
  | 0x1C => pageOwner s p + 2 ^ 31 * b2n h.lock | 0x20 => h.tick.toNat | 0x24 => h.seq.toNat
  | _ => (cntAt h ((off - 0x28) / 4)).toNat

/-- The words of a page's own registers. -/
def bodyValue (s : State) : Page → Nat → Nat
  | .glb => glbValue s | .tck => tckValue s | .pwr => pwrValue s | .thm => thmValue s | .ent => entValue s | .cfg => cfgValue s
  | .err => errValue s | .tel => telValue s | .calCtl => calCtlValue s | .ptp => ptpValue s | .avsDev => avsDevValue s
  | .hbcI i => hbcIValue s i | .ktpI i => ktpIValue s i | .pwrI i => pwrIValue s i | .hdg i => hdgValue s i | .rng r => rngValue s r
  | .sup n => supValue s n | .pci n => pciValue s n | .eth n => ethValue s n | .ktp n => ktpValue s n | .avs d => avsValue s d
  | .sns c => snsValue s c | .d2d m => d2dValue s m | .cal c => calValue s c | .xbr k => xbrValue s k | .hbc d => hbcValue s d
  | .clu c => cluValue s c | .mex c => mexValue s c | .spg c => spgValue s c | .sua c => suaValue s c | .drw c => drwValue s c
  | .cnt c => cntValue s c | .absent => fun _ => 0

/-- What the word at offset `off` of page `pg` reads as: RSV and WO bits read 0 (R10, R463); an absent page reads 0 (R450). -/
def readWord (s : State) (pg off : Nat) : Word :=
  let p := pageOf pg
  match regAt s p off with
  | some r =>
    BitVec.ofNat 32 (Nat.land (if off < 0x40 then headerValue s pg p off else bodyValue s p off)
      (r.rw + r.ro + r.w1c + r.rc + (if off = 0x18 then r.wo else 0)))
  | none => 0

end Sys2Proof.Machine
end

