-- ==== Sys2Proof/Machine/Registers.lean ====
section
/-! DEFINITION. Machine/Registers.lean: register accesses (R461–R466, R474, R477): what a write does by field type, the pairs
named _LO and _HI, locks, a VF's view, the request queues, and reads with their side effects. -/

namespace Sys2Proof.Machine

/-! ### Error injection, armed by a write (R456) -/

/-- The error codes that the blocks of a page type detect (Table — Error codes; entry 13). -/
def detectable (typ : Nat) : List Nat :=
  match typ with
  | 0x02 => [0x5001] | 0x03 => [0x5002, 0x5003] | 0x04 => [0x8002, 0x8003, 0x8006] | 0x05 => [0x8001, 0x8007, 0x8008]
  | 0x06 => [0x6002] | 0x20 => [0x7002, 0x7003] | 0x21 => [0x7001] | 0x30 => [0x1003, 0x1004, 0x1005]
  | 0x31 => [0x2003, 0x2004, 0x2005, 0x2006] | 0x32 => [0x2007, 0x2009] | 0x33 => [0x9001, 0x9002]
  | 0x40 => [0x2001, 0x2002, 0x2008, 0x3005] | 0x41 => [0x1001, 0x1002, 0x3001, 0x3004] | 0x42 => [0x1001, 0x1002, 0x3003]
  | 0x43 => [0x1001, 0x1002, 0x3002, 0x3004, 0x6001] | 0x44 => [0x3004] | 0x45 => [0x4001]
  | _ => []

/-- A write to PG_ERRINJ: ignored whole while an injection is armed; GO arms a code that the block can detect, and any other code
leaves the register 0 (R456). `v` is CODE and TARGET. -/
def writeInject (s : State) (pg : Nat) (v : Nat) (go : Bool) : State :=
  let p := pageOf pg
  if !(canInject p) || (hdrAt s pg).injGo then s
  else if go && !((detectable (pageId p).1).contains (v % 65536)) then
    modHdr s pg fun h => { h with injCode := 0, injTarget := 0 }
  else modHdr s pg fun h => { h with
    injCode := BitVec.ofNat 16 v, injTarget := BitVec.ofNat 8 (v / 65536), injGo := go }

/-! ### Writes by page -/

/-- The common header (R452–R457). `nv` holds the RW bits, `w1` the RW1C bits written as 1, `wo` the WO bits. -/
def writeHeader (s : State) (pg off nv w1 wo : Nat) : State :=
  match off with
  | 0x08 => modHdr s pg fun h => { h with freeze := bit nv 0, clearPend := h.clearPend || (bit wo 1 && !(tickCnt pg)) }
  | 0x10 => modHdr s pg fun h => { h with err := h.err &&& ~~~(BitVec.ofNat 32 w1) }
  | 0x14 => modHdr s pg fun h => { h with errMsk := BitVec.ofNat 32 nv }
  | 0x18 => writeInject s pg nv (bit wo 31)
  | 0x1C => modHdr s pg fun h => { h with lock := bit nv 31 }
  | _ => s

/-- GLB_CTL: FW_SEL, then FW_COMMIT and FW_ACTIVATE. -/
def writeGlb (s : State) (off nv wo : Nat) : State :=
  if off = 0x54 then
    let s1 := modGlb s fun g => { g with fwSel := bit nv 2 }
    let s2 := if bit wo 0 then fwCommit s1 else s1
    if bit wo 1 then fwActivate s2 else s2
  else s

/-- The PTP time of a START or STEP written as a register is a free value. -/
def writeTck (s : State) (off nv wo : Nat) : State :=
  match off with
  | 0x40 => modTck s fun k => { k with cfgStaged := some (BitVec.ofNat 32 nv) }
  | 0x44 => modTck s fun k => { k with periodStaged := some nv }
  | 0x48 =>
    let s1 := if bit wo 0 then startTick (burn s 1) (Config.freeNat s.fresh) else s
    if bit wo 1 then stepTick (burn s1 1) (Config.freeNat s1.fresh) else s1
  | 0x64 => modTck s fun k => { k with inofsStaged := some (BitVec.ofNat 32 nv) }
  | 0x68 => modTck s fun k => { k with outEn := bit nv 0, outDiv := BitVec.ofNat 16 (nv / 2 ^ 16) }
  | _ => s

/-- The name of a TRIG pin. -/
def trigName (n : Nat) : String := match n with | 0 => "TRIG0" | 1 => "TRIG1" | 2 => "TRIG2" | _ => "TRIG3"

/-- TRIG outputs whose driver is on take their level (PWR_TRIG, R426). -/
def driveTrigs (s : State) : State :=
  (List.range 4).foldl (fun t n =>
    if s.pwr.trig.toNat / 16 ^ n % 4 = 2 ∧ !(mget s.pwr.driverOff false (2 + n)) then
      emit t (.pin (trigName n) (bit (s.pwr.trig.toNat / 16 ^ n) 2))
    else t) s

def writePwr (s : State) (off nv wo : Nat) : State :=
  match off with
  | 0x50 => modPwr s fun p => { p with
      noHoldOk := bit nv 0, leakAct := bit nv 1, shdnEn := bit nv 2, incap := bits nv 26 16 }
  | 0x54 => if bit wo 0 then startSave s 7 else s
  | 0x68 => driveTrigs (modPwr s fun p => { p with trig := BitVec.ofNat 16 nv })
  | _ => s

/-- THM thresholds: a CRIT above 105 is ignored. -/
def writeThm (s : State) (off nv : Nat) : State :=
  match off with
  | 0x4C => modThm s fun t => { t with warn := bits nv 7 0, crit := if 105 < bits nv 15 8 then t.crit else bits nv 15 8 }
  | 0x50 => modThm s fun t => { t with coolWarn := bits nv 7 0, coolTrip := bits nv 15 8 }
  | _ => s

def writeEnt (s : State) (off nv wo : Nat) : State :=
  match off with
  | 0x44 => classARetry (BitVec.ofNat 4 wo) s
  | 0x4C => modEnt s fun e => { e with trimStaged := some (toSigned 6 (bits nv 5 0), toSigned 6 (bits nv 13 8)) }
  | _ => s

def writeCfg (s : State) (off nv w1 wo : Nat) : State :=
  match off with
  | 0x50 => modGlb s fun g => { g with flAddr := BitVec.ofNat 28 nv }
  | 0x54 => flashStart (BitVec.ofNat 2 wo) s
  | 0x58 => modGlb s fun g => { g with flRefused := g.flRefused && !(bit w1 1) }
  | _ => modGlb s fun g => { g with flData := writeLe g.flData (off - 0x400) 4 nv }

/-- ERR_TAIL: the entries from the new tail up to HEAD remain to be read (R399). -/
def writeErr (s : State) (off nv : Nat) : State :=
  if off = 0x44 ∧ nv ≠ s.errs.tail then
    { s with errs := { s.errs with tail := nv, count := (s.errs.head + 2048 - nv) % 2048 } }
  else s

def writeTel (s : State) (off nv : Nat) : State :=
  if off = 0x40 then modTel s fun t => { t with interval := bits nv 15 0, en := bit nv 16 } else s

def writeCalCtl (s : State) (off nv : Nat) : State :=
  match off with
  | 0x40 => modCalCtl s fun k => { k with marginStaged := some nv }
  | 0x44 => modCalCtl s fun k => { k with pwrCap := nv }
  | _ => s

/-- A calendar page: the table write goes to the shadow (R76). -/
def writeCal (s : State) (c off nv wo : Nat) : State :=
  if off = 0x44 then (if bit wo 0 then modCal s c fun k => { k with pending := true } else s)
  else if 0x400 ≤ off then
    modCal s c fun k => { k with shadow := (List.range 4).foldl (fun m b =>
      mset m 0xFF (off - 0x400 + b) (bits nv (8 * b + 7) (8 * b))) k.shadow }
  else s

def writeAvsDev (s : State) (off nv : Nat) : State :=
  match off with
  | 0x44 => modAvsDev s fun a => { a with genvStaged := some (bits nv 1 0, bits nv 3 2) }
  | 0x4C => modAvsDev s fun a => { a with gup := nv }
  | _ => s

def writeAvs (s : State) (d off nv : Nat) : State :=
  match off with
  | 0x44 => writeVenv d (BitVec.ofNat 32 nv) s
  | 0x50 => modAvs s d fun a => { a with eqStaged := some (bits nv 7 0, bits nv 15 8) }
  | _ => s

/-- HBC instance page: DATALOSS, and the segment entries (R101, R264). -/
def writeHbcI (s : State) (id off nv w1 : Nat) : State :=
  if off = 0x48 then modInst s id fun i => { i with dataLoss := i.dataLoss && !(bit w1 0) }
  else if 0x400 ≤ off ∧ off < 0x800 then writeSeg s id ((off - 0x400) / 16) (off % 16 / 4) (BitVec.ofNat 32 nv)
  else s

def writeKtp (s : State) (n off nv wo : Nat) : State :=
  if off = 0x40 then modKtp s n fun k => { k with udpPort := BitVec.ofNat 16 nv }
  else if 0x100 ≤ off ∧ off < 0x120 then modKtp s n fun k => { k with keyData := mset k.keyData 0 ((off - 0x100) / 4) (BitVec.ofNat 32 wo) }
  else if off = 0x120 then modKtp s n fun k => { k with salt := BitVec.ofNat 32 wo }
  else if off = 0x124 then installKey n (BitVec.ofNat 32 wo) s
  else if 0x400 ≤ off then writeFlow n ((off - 0x400) / 48) ((off - 0x400) % 48 / 4) (BitVec.ofNat 32 nv) s
  else s

/-- RNG_CFG and RNG_VEC (R346, R359): while ENABLE is 1 the owner's other fields keep their values; rings 0–3 stay management's; a
ring that is enabled starts over at index 0 in its first pass. A LOG2 outside 4–12 is not taken. -/
def writeRingCfg (s : State) (r nv : Nat) : State :=
  let x := ringAt s r
  let own := if r < 4 then 0 else bits nv 15 8
  let y : Ring := if x.enable then { x with enable := bit nv 0, owner := own }
    else { x with
      enable := bit nv 0, kind := bit nv 1, owner := own, cq := bits nv 23 16
      log2 := if 4 ≤ bits nv 5 2 ∧ bits nv 5 2 ≤ 12 then bits nv 5 2 else x.log2 }
  setRing s r (if y.enable && !x.enable then
    { y with head := 0, tail := 0, snap := 0, phase := true, fenced := false, cqWait := false } else y)

def writeRng (s : State) (r off nv wo : Nat) : State :=
  match off with
  | 0x40 => writeRingCfg s r nv
  | 0x44 => modRing s r fun x => if x.enable then x else { x with vector := bits nv 5 0, irqMode := bit nv 8 }
  | 0x50 => ringDoorbell s r wo
  | _ => s

/-- PCI: FAILCTL.FORCE on P1 (R342), CPLTO, and the tag allotments, which a write cannot take past R363's limits. -/
def writePci (s : State) (n off nv wo : Nat) : State :=
  if off = 0x44 then (if n = 1 ∧ bit wo 0 ∧ !s.failedOver then failOver s else s)
  else if off = 0x48 then modPci s n fun p => { p with cplto := BitVec.ofNat 16 nv }
  else if 0x400 ≤ off ∧ off < 0x600 then
    let i := (off - 0x400) / 4
    let v := nv % 2048
    let others := ((List.range 65).map fun j => if j = i then 0 else tagsAllotted s n j).sum
    if 1024 < others + v ∨ i = 0 ∧ v < 64 then s
    else modPci s n fun p => { p with tags := mset p.tags none i (some v) }
  else s

def writeEth (s : State) (n off nv : Nat) : State :=
  match off with
  | 0x40 => modEth s n fun e => { e with mode := BitVec.ofNat 2 nv, cr := bit nv 2 }
  | 0x50 => modEth s n fun e => { e with ipv4 := BitVec.ofNat 32 nv }
  | 0x64 => modEth s n fun e => { e with
      honor := BitVec.ofNat 8 nv, gen := BitVec.ofNat 8 (nv / 2 ^ 8), xoff := BitVec.ofNat 8 (nv / 2 ^ 16), xon := BitVec.ofNat 8 (nv / 2 ^ 24) }
  | _ =>
    if 0x54 ≤ off ∧ off < 0x64 then
      modEth s n fun e => { e with ipv6 := BitVec.ofNat 128 (setBits e.ipv6.toNat (8 * (off - 0x54) + 31) (8 * (off - 0x54)) nv) }
    else s

/-- The unit flags of a cluster page, and the annealing registers of a lead page (R218, R219, R227). TRBASE is taken only while the
hedge is not RUNNING. -/
def writeAnn (s : State) (h off nv wo : Nat) : State :=
  match off with
  | 0x200 => modAnn s h fun a => { a with wrap := bit nv 0, onBest := bit nv 1, every := bits nv 15 8, bestClr := a.bestClr || bit wo 31 }
  | 0x248 => if 6 ≤ nv ∧ nv ≤ 20 then modAnn s h fun a => { a with trSize := nv } else s
  | 0x250 => modAnn s h fun a => { a with trTail := nv % 2 ^ a.trSize }
  | _ =>
    let a := (instAt s h).ann
    match stagePar (a.staged.getD a.par) off (BitVec.ofNat 32 nv) with
    | some p => modAnn s h fun a => { a with staged := some p }
    | none => s

def writeSua (s : State) (c off nv w1 wo : Nat) : State :=
  if off = 0x48 then modCluster s c fun k => { k with su := { k.su with flags := k.su.flags &&& ~~~(BitVec.ofNat 3 w1) } }
  else match leadInst s c with
    | some h => writeAnn s h off nv wo
    | none => s

/-- A write to a page's own registers. -/
def writeBody (s : State) (p : Page) (off nv w1 wo : Nat) : State :=
  match p with
  | .glb => writeGlb s off nv wo | .tck => writeTck s off nv wo | .pwr => writePwr s off nv wo | .thm => writeThm s off nv
  | .ent => writeEnt s off nv wo | .cfg => writeCfg s off nv w1 wo | .err => writeErr s off nv | .tel => writeTel s off nv
  | .calCtl => writeCalCtl s off nv | .cal c => writeCal s c off nv wo
  | .ptp => if off = 0x40 then writePtpCfg (BitVec.ofNat 32 nv) s else s
  | .avsDev => writeAvsDev s off nv | .avs d => writeAvs s d off nv | .hbcI i => writeHbcI s i off nv w1
  | .hbc d => if off = 0x4C then modStack s d fun k => { k with ceThr := nv } else s
  | .ktpI i => if 0x400 ≤ off then writeChan i ((off - 0x400) / 4) (BitVec.ofNat 32 nv) s else s
  | .ktp n => writeKtp s n off nv wo
  | .pwrI i => if off = 0x48 ∧ bit wo 4 then keepLoad i s else s
  | .rng r => writeRng s r off nv wo
  | .sup n => if off = 0x50 ∧ n = 1 ∧ bit wo 0 then modSup s 1 fun x => { x with force := true } else s
  | .pci n => writePci s n off nv wo | .eth n => writeEth s n off nv
  | .sns c => if off = 0x40 then modSns s c fun x => { x with owner := bits nv 7 0 } else s
  | .d2d m => if off = 0x48 then modD2d s m fun d => { d with errThr := nv } else s
  | .mex c => if off = 0x44 then modCluster s c fun k => { k with me := { k.me with flags := k.me.flags &&& ~~~(BitVec.ofNat 9 w1) } } else s
  | .spg c => if off = 0x48 then modCluster s c fun k => { k with spgFlags := k.spgFlags &&& ~~~(BitVec.ofNat 4 w1) } else s
  | .sua c => writeSua s c off nv w1 wo
  | .drw c => if off = 0x48 then modCluster s c fun k => { k with drw := { k.drw with flags := k.drw.flags &&& ~~~(BitVec.ofNat 6 w1) } } else s
  | .hdg _ | .xbr _ | .clu _ | .cnt _ | .absent => s

/-! ### Pairs (R462) -/

/-- Offsets of the _LO words of a page. -/
def pairLows : Page → List Nat
  | .glb => [0x40] | .tck => [0x50, 0x58, 0x80] ++ (List.range 64).map (fun i => 0x400 + 16 * i) | .tel => [0x48] | .ptp => [0x50]
  | .hbcI _ => [0x4C] | .pwrI _ => [0x40] | .rng _ => [0x48] | .eth _ => [0x48] | .sns _ => [0x5C, 0x68, 0x70] | .d2d _ => [0x4C]
  | .hbc _ => [0x44, 0x60] | .sua _ => [0x50, 0x58, 0x60, 0x204, 0x22C, 0x234, 0x240]
  | _ => []

/-- The word is the _HI of a pair, or its _LO. -/
def isHi (p : Page) (off : Nat) : Bool := 4 ≤ off && (pairLows p).contains (off - 4)
def isLo (p : Page) (off : Nat) : Bool := (pairLows p).contains off

/-- A pair takes a 64-bit value. -/
def writePair (s : State) (p : Page) (low : Nat) (v : Word64) : State :=
  match p with
  | .tck => if low = 0x58 then modTck s fun k => { k with t0Staged := some v } else s
  | .eth n => modEth s n fun e => { e with mac := v.setWidth 48 }
  | .pwrI i => modInst s i fun x => { x with keepSrc := v }
  | .rng r => modRing s r fun x => if x.enable then x else { x with base := v }
  | .sua c => match leadInst s c with
    | some h =>
      if low = 0x204 then modAnn s h fun a => { a with base := v }
      else if low = 0x240 ∧ (instAt s h).st ≠ .running then modAnn s h fun a => { a with trBase := v }
      else s
    | none => s
  | _ => s

/-! ### A write (R10, R454, R457, R463) -/

/-- A write of word `v` by function `f` to a page that takes it, on the bits in `mask`. -/
def writeWord (s : State) (f pg off : Nat) (v : Word) (mask : Nat) : State :=
  let p := pageOf pg
  match regAt s p off with
  | none => s
  | some r =>
    let rw := Nat.land r.rw mask
    let w1 := Nat.land r.w1c mask
    let wo := Nat.land r.wo mask
    if rw = 0 ∧ w1 = 0 ∧ wo = 0 then s
    else
      let cur := readWord s pg off
      let nv : Word := (cur &&& ~~~(BitVec.ofNat 32 rw)) ||| (v &&& BitVec.ofNat 32 rw)
      let t :=
        if off < 0x40 then writeHeader s pg off (Nat.land nv.toNat r.rw) (Nat.land v.toNat w1) (Nat.land v.toNat wo)
        else if isLo p off ∨ isHi p off then
          let low := if isHi p off then off - 4 else off
          pairWrite s f (pg * 4096 + low) (isHi p off) nv ((readWord s pg (low + 4)) ++ (readWord s pg low))
            fun u w => writePair u p low w
        else writeBody s p off (Nat.land nv.toNat r.rw) (Nat.land v.toNat w1) (Nat.land v.toNat wo)
      touch t pg

/-! ### The VF view (R472–R475) -/

/-- The TCK view's offsets (R475). -/
def tckView (off : Nat) : Bool :=
  decide (off < 0x40) || [0x44, 0x4C, 0x50, 0x54, 0x6C, 0x70, 0x74, 0x400, 0x404, 0x408, 0x40C].contains off

/-- Where a VF's address leads: page, offset, and whether it is one of the two restricted views (R472, R473). -/
def vfTarget (s : State) (n addr : Nat) : Option (Nat × Nat × Bool) :=
  let vp := addr / 4096
  let off := addr % 4096
  let i := instAt s n
  if !i.vfEnabled then none
  else if vp = 0 then (if off < 0x50 then some (0, off, true) else none)
  else if vp = 1 then
    (if tckView off then some (1, if off < 0x400 then off else off + (n - 1) * 16, true) else none)
  else if vp = 2 then some (pgHdg n, off, false)
  else if vp = 3 then some (pgHbcI n, off, false)
  else if vp = 4 then some (pgKtpI n, off, false)
  else if vp = 5 then some (pgPwrI n, off, false)
  else if 0x10 ≤ vp ∧ vp < 0x20 then
    (if (snsAt s (vp - 0x10)).owner = n then some (pgSns (vp - 0x10), off, false) else none)
  else if 0x100 ≤ vp ∧ vp < 0x200 then
    (if (ringAt s (vp - 0x100)).owner = n then some (pgRng (vp - 0x100), off, false) else none)
  else if 0x400 ≤ vp ∧ vp < 0x1000 then
    (if (vp - 0x400) / 6 < i.w * i.h then some (pgClu (globalId i ((vp - 0x400) / 6)) ((vp - 0x400) % 6), off, false) else none)
  else none

/-- Where a function's address leads: none for a VF outside its pages (R344). -/
def target (s : State) (f addr : Nat) : Option (Nat × Nat × Bool) :=
  if f = 0 then some (addr / 4096, addr % 4096, false) else vfTarget s f addr

/-- A VF's write would change a field that is not its to write, or triggers a WO bit that it may not (R474). -/
def vfForbidden (s : State) (pg off : Nat) (v : Word) (r : Reg) (vf : Nat) : Bool :=
  let cur := (readWord s pg off).toNat
  let keep (m : Nat) : Nat := m - Nat.land m vf
  Nat.land (Nat.xor v.toNat cur) (keep (r.rw + r.ro + r.rc)) != 0 ||
    Nat.land (Nat.land v.toNat cur) (keep r.w1c) != 0 || Nat.land v.toNat (keep r.wo) != 0

/-- The page answers (R432): before READY only GLB and CFG do. -/
def pageServes (s : State) (pg : Nat) : Bool := s.glb.ready || pg == 0 || pg == 5

/-- One 32-bit write by function `f` (R432, R457, R474, R477). -/
def accessWrite (s : State) (f addr : Nat) (v : Word) : State :=
  if s.pwr.saving then s
  else match target s f addr with
    | none => if s.glb.ready then vfViolation s f else s
    | some (pg, off, view) =>
      if !(pageServes s pg) ∨ pageOf pg = .absent then s
      else if locked s pg ∧ off ≠ 0x1C then pgErr s pg 30
      else if f = 0 then writeWord s 0 pg off v wAll
      else match regAt s (pageOf pg) off with
        | none => s
        | some r =>
          let vf := if view then 0 else r.vf
          let s1 := if vfForbidden s pg off v r vf then vfViolation s f else s
          writeWord s1 f pg off v vf

/-! ### A read (R10, R462) -/

/-- The read of an RC field clears it. -/
def clearRc (s : State) (p : Page) (off : Nat) : State :=
  match p with
  | .ent => modEnt s fun e => if off = 0x50 then { e with trimConf := 0 } else { e with seedMiss := 0 }
  | .err => { s with errs := { s.errs with lost := 0 } }
  | .ktpI i => modInst s i fun x => match off with
    | 0x40 => { x with sendLate := 0 } | 0x44 => { x with retx := 0 } | 0x48 => { x with authFail := 0 } | _ => { x with dropped := 0 }
  | .hdg i => modInst s i fun x => match off with
    | 0x74 => { x with wallIn := 0 } | 0x78 => { x with wallOut := 0 } | _ => { x with borrowSlots := 0 }
  | .pci n => modPci s n fun x => match off with
    | 0x4C => { x with sinkB := 0 } | 0x50 => { x with sinkP := 0 } | 0x58 => { x with regDrop := 0 }
    | _ => { x with vfViol := mset x.vfViol 0 ((off - 0x600) / 4) 0 }
  | .eth n => modEth s n fun e => match off with
    | 0x68 => { e with fecCorr := 0 } | 0x6C => { e with fecUncorr := 0 } | _ => { e with rxOther := 0 }
  | .avs d => modAvs s d fun a => if off = 0x4C then { a with vconf := 0 } else { a with eqConf := 0 }
  | .avsDev => modAvsDev s fun a => { a with gconf := 0 }
  | .cnt c => modCluster s c fun k => { k with cnt := { k.cnt with divTicks := 0 } }
  | .sua c => match leadInst s c with
    | some h => modAnn s h fun a => match off with
      | 0x224 => { a with brConf := 0 } | 0x228 => { a with tClamp := 0 } | 0x254 => { a with trDrop := 0 }
      | 0x25C => { a with xMiss := 0 } | 0x260 => { a with xStale := 0 } | _ => { a with xLate := 0 }
    | none => s
  | _ => s

/-- A read of one word with its side effects: an RC field is cleared, a _LO latches its _HI for the function, and a latched _HI is
used up. TCK_PHASE takes a free value for OFFSET_US. -/
def readReg (s : State) (f pg off : Nat) : Word × State :=
  let p := pageOf pg
  let key := fnKey f (pg * 4096 + off)
  match mget s.hiLatch none key with
  | some v => (v, { s with hiLatch := mset s.hiLatch none key none })
  | none =>
    let v := readWord s pg off
    let rc := match regAt s p off with | some r => r.rc | none => 0
    let s1 := if rc ≠ 0 then touch (clearRc s p off) pg else s
    let s2 := if pg = 1 ∧ off = 0x6C then burn s1 1 else s1
    if isLo p off then (v, { s2 with hiLatch := mset s2.hiLatch none (key + 4) (some (readWord s pg (off + 4))) })
    else (v, s2)

/-- One 32-bit read by function `f` (R344, R432). -/
def accessRead (s : State) (f addr : Nat) : Word × State :=
  match target s f addr with
  | none => (0, if s.glb.ready then vfViolation s f else s)
  | some (pg, off, _) => if pageServes s pg then readReg s f pg off else (0, s)

/-! ### Requests (R461, R465) -/

/-- An access of 4 bytes, or of 8, aligned to its size (R461). -/
def sizeOk (addr size : Nat) : Bool := (size == 4 || size == 8) && addr % size == 0

/-- Any other access sets PG_ERR bit 31 of the page it falls on (R461). -/
def sizeError (s : State) (f addr : Nat) : State :=
  match target s f addr with
  | none => if s.glb.ready then vfViolation s f else s
  | some (pg, _, _) => if pageServes s pg && decide (pageOf pg ≠ .absent) && !s.pwr.saving then pgErr s pg 31 else s

/-- The function's queue of 32 requests is full (R465). -/
def queueFull (s : State) (f : Nat) : Bool := decide (32 ≤ mget s.regQueue 0 f)

/-- A request that finds its queue full is counted on the serving link's page (R465). -/
def dropRequest (s : State) : State :=
  touch (modPci s (serving s) fun p => { p with regDrop := p.regDrop + 1 }) (pgPort (serving s) 1)

/-- The read is done and its completion waits for the function's device-to-host slots; before the tick unit runs there are no
slots and it leaves at once (R465). -/
def answerRead (s : State) (f addr : Nat) (vs : List Word) : State :=
  if s.tck.running then
    enqueue { s with regQueue := mset s.regQueue 0 f (mget s.regQueue 0 f + 1) } (pcieCal s 1)
      { owner := f, kind := .readCpl f addr vs, left := 4 * vs.length, planned := true }
  else tlps (emit s (.readValue f addr vs)) 1 1

/-- A read completion has left: it is done, and its queue entry is free (R465). -/
def sendReadCpl (s : State) (f addr : Nat) (vs : List Word) : State :=
  tlps (emit { s with regQueue := mset s.regQueue 0 f (mget s.regQueue 0 f - 1) } (.readValue f addr vs)) 1 1

/-- A register read request (R461, R465): Completer Abort when the queue is full; a 64-bit read returns both halves, the lower address
first. From a save on it is served until the links are off (R477). -/
def readRequest (s : State) (f addr size : Nat) : State :=
  if !s.pwr.on ∨ !s.pwr.computeOn then s
  else if queueFull s f then emit (dropRequest (tlps s 0 1)) (.completerAbort f addr)
  else if !(sizeOk addr size) then answerRead (sizeError (tlps s 0 1) f addr) f addr [0]
  else
    let a := accessRead (tlps s 0 1) f addr
    if size = 8 then
      let b := accessRead a.2 f (addr + 4)
      answerRead b.2 f addr [a.1, b.1]
    else answerRead a.2 f addr [a.1]

/-- A register write request (R461, R465): dropped when the queue is full. -/
def writeRequest (s : State) (f addr : Nat) (v : Word64) (size : Nat) : State :=
  if !s.pwr.on ∨ !s.pwr.computeOn then s
  else if queueFull s f then dropRequest (tlps s 0 1)
  else if !(sizeOk addr size) then sizeError (tlps s 0 1) f addr
  else
    let s1 := accessWrite (tlps s 0 1) f addr (v.setWidth 32)
    if size = 8 then accessWrite s1 f (addr + 4) ((v >>> 32).setWidth 32) else s1

/-- REGISTER_READ (R461–R466). -/
def execRegisterRead (f : Fn) (addr : BitVec 28) (size : Fin 9) (s : State) : Result := .next (readRequest s f.val addr.toNat size.val)

/-- REGISTER_WRITE (R10, R461–R466). -/
def execRegisterWrite (f : Fn) (addr : BitVec 28) (v : Word64) (size : Fin 9) (s : State) : Result :=
  .next (writeRequest s f.val addr.toNat v size.val)

/-- RC_FIELD_READ: a read of one word, which clears its RC field (R10). -/
def execRcFieldRead (f : Fn) (addr : BitVec 28) (s : State) : Result := .next (readRequest s f.val addr.toNat 4)

/-- The header word `off` of the page at an address. -/
def headerAddr (addr : BitVec 28) (off : Nat) : Nat := addr.toNat / 4096 * 4096 + off

/-- PG_CTL_FREEZE: PG_CTL.FREEZE by management (R452). -/
def execPgCtlFreeze (addr : BitVec 28) (on : Bool) (s : State) : Result :=
  .next (accessWrite s 0 (headerAddr addr 0x08) (if on then 1 else 0))

/-- PG_CTL_CLEAR: PG_CTL.CLEAR, with FREEZE as it stands (R452). -/
def execPgCtlClear (addr : BitVec 28) (s : State) : Result :=
  .next (accessWrite s 0 (headerAddr addr 0x08) (if (hdrAt s (addr.toNat / 4096)).freeze then 3 else 2))

/-- PAGE_LOCK: PG_OWN.LOCK by management (R457). -/
def execPageLock (addr : BitVec 28) (on : Bool) (s : State) : Result :=
  .next (accessWrite s 0 (headerAddr addr 0x1C) (if on then 0x80000000 else 0))

/-- ERROR_INJECT: PG_ERRINJ by management (R401, R456). -/
def execErrorInject (addr : BitVec 28) (v : Word) (s : State) : Result := .next (accessWrite s 0 (headerAddr addr 0x18) v)

end Sys2Proof.Machine
end

