-- ==== Sys2Proof/Machine/Slots.lean ====
section
/-! DEFINITION. Machine/Slots.lean: a calendar slot (R72–R75, R79, R80, R129, R302, R303, R490): which slot of the tick it is, whose
transfer it issues, how much of it moves, and what the move does. -/

namespace Sys2Proof.Machine

/-! ### Die links (R129–R133) -/

/-- The flits of an adapter that have arrived by WORK cycle `t`, in the order of their arrival, at most `n`. -/
def arrivedFlits (l : List Waiting) (t n : Nat) : List Waiting := (l.filter fun w => decide (w.f.at_ ≤ t)).take n

/-- A router output at a die edge waits for this slot, which starts in WORK cycle `t`: the cycles in which its first flit of a VC was
ready and waited are its stall cycles (R123, R129). -/
def edgeStall (h t : Nat) (s : State) (w : Waiting) : State :=
  let key := portKey w.src w.out w.f.vc.val
  let from_ := Nat.max (w.f.at_ + 1) (mget (netAt s h).counted 0 key)
  if from_ < t then addStall (modNet s h fun x => { x with counted := mset x.counted 0 key t }) w.src w.out w.f.vc.val (t - from_)
  else s

/-- A flit of a slot that starts in WORK cycle `t` is at the far adapter 40 cycles later, and enters its router there, one flit per
cycle (R129). -/
def crossEdge (h t : Nat) (s : State) (w : Waiting) : State :=
  modNet s h fun x =>
    let u := Nat.max (t + 40) (mget x.entry 0 (w.far * 5 + w.inp))
    let key := portKey w.far w.inp w.f.vc.val
    { x with
      entry := mset x.entry 0 (w.far * 5 + w.inp) (u + 1)
      bufs := mset x.bufs [] key (mget x.bufs [] key ++ [{ w.f with at_ := u }]) }

/-- Slot `n` of a die-link calendar: flits of its owner that wait at the adapters cross in the order of their arrival (R129). -/
def dieSlot (s : State) (cal n cap : Nat) : State :=
  let h := slotOwner s cal n
  if s.tck.phase = .work ∧ 1 ≤ h ∧ h ≤ 64 ∧ (instAt s h).st = .running then
    let t := cycleAt s (slotStart cal n)
    let s1 := netTo h (t + 1) netFuel s
    let l := mget (netAt s1 h).adapters [] cal
    let go := arrivedFlits l t (cap / 64)
    let rest := l.filter fun w => !(go.contains w)
    let s2 := l.foldl (edgeStall h t) s1
    let s3 := modNet s2 h fun x => { x with adapters := mset x.adapters [] cal rest }
    modCal (go.foldl (crossEdge h t) s3) cal fun k => { k with used := go.length }
  else s

/-! ### Every other class -/

/-- The owner's slot zeroes a segment of the instance after its reset (R114). -/
def slotZeroes (s : State) (cal o : Nat) : Bool :=
  calClass cal == 1 && decide (1 ≤ o ∧ o ≤ 64) && zeroingOn s o (calUnit cal) &&
    ((instAt s o).st != .resetting || decide (2 ≤ (instAt s o).resetStep))

/-- The half page of a compute die that an address of an instance falls on as the port spine reaches it (XBR page): that of its
slice; in front of HBM the spec names none, and the choice is free (entry 25). -/
def spineHalf (s : State) (id va : Nat) : Nat :=
  match physOf (instAt s id) (readVa (instAt s id) va) with
  | some a => if isHbm a then Config.freeNat s.fresh % 2 else sliceIndexOf a / 16 % 2
  | none => 0

/-- Count a spine transfer in or out on the XBR page of a compute die. -/
def countSpine (s : State) (cal id va : Nat) : State :=
  bump (burn s 1) (pgDie (calUnit cal / 2) (spineHalf s id va)) (2 + calUnit cal % 2)

/-- Count a move on the page of the unit that carried it: spine transfers in and out on the XBR page, TLPs on the PCI page, whose
number for a move the spec does not state (entry 25). -/
def countMove (s : State) (cal id k : Nat) : State :=
  match calClass cal, s.xfers.find? fun x => x.id == id with
  | 2, some x => countSpine s cal x.inst (xferVa x k)
  | 5, some _ => tlps (burn s 1) (calUnit cal % 2) (Config.freeNat s.fresh)
  | _, _ => s

/-- What the hedge's clusters did before WORK cycle `t` is in the slices before an access of another engine comes (R288). -/
def settleNet (s : State) (h t : Nat) : State := if s.tck.phase = .work then netTo h t netFuel s else s

/-- Bytes of a transfer move in slot `m`; the packets of a send are made as its source is read (R316). -/
def moveTransfer (s : State) (cal m id stop left n : Nat) : State :=
  match s.xfers.find? fun x => x.id == id with
  | none => s
  | some x =>
    let s1 := settleNet s x.inst (cycleAt s (slotStart cal m))
    let s2 := moveDma (countMove s1 cal id (stop - left)) id cal stop left n
    match x.kind with
    | .send _ _ => packAll s2 x.inst
    | _ => s2

/-- Bytes of received data move in slot `m` (R305, R339). -/
def moveArrival (s : State) (cal m id stop left n : Nat) : State :=
  match s.deliveries.find? fun d => d.id == id with
  | none => s
  | some d =>
    let s1 := settleNet s d.inst (cycleAt s (slotStart cal m))
    let s2 := if calClass cal = 2 then countSpine s1 cal d.inst (d.va + (stop - left)) else s1
    moveDelivery s2 id cal stop left n (slotStart cal m)

/-- What moving `n` of the `it.left` bytes of what waits does, in slot `m`. -/
def moveItem (s : State) (cal m n : Nat) (it : CalItem) : State :=
  match it.kind with
  | .dma id stop => moveTransfer s cal m id stop it.left n
  | .entropy id => drawEntropy s id n
  | .hbmOp c tag => moveHbm s c.val tag (slotStart cal m) n
  | .deliver id stop => moveArrival s cal m id stop it.left n
  | .relay id => if it.left ≤ n then endRelay s id else s
  | .readCpl f addr vs => if it.left ≤ n then sendReadCpl s f addr vs else s

/-- A borrowed slot is counted on the calendar and for the borrower (R79, R80). -/
def countBorrow (s : State) (cal b : Nat) : State :=
  bump (modCal (modInst s b fun i => { i with borrowLive := i.borrowLive + 1 }) cal fun k => { k with lastBorrow := b })
    (pgCal cal) 1

/-- The most that a slot of capacity `cap` moves of what waits: class A words for DRAW_ENTROPY only as the tick's supply leaves
them (R255). -/
def itemRoom (s : State) (cap : Nat) (it : CalItem) : Nat :=
  match it.kind with
  | .entropy _ => Nat.min cap (s.ent.pool / 32 * 4)
  | _ => cap

/-- One transfer is issued in slot `m`, which can carry `cap` bytes; one that the run's end cuts is counted (R74). -/
def issueItem (s : State) (cal m cap : Nat) (it : CalItem) (borrowed : Bool) : State :=
  let n := Nat.min it.left (itemRoom s cap it)
  let s1 := moveItem (modCal s cal fun k => consume k it n) cal m n it
  if borrowed then countBorrow s1 cal it.owner
  else if n < it.left ∧ runEnds s cal m then bump s1 (pgCal cal) 0
  else s1

/-- Slot `m` of a calendar other than egress and die link (R74, R79, R114, R380). -/
def transferSlot (s : State) (cal m cap : Nat) : State :=
  let o := slotOwner s cal m
  if slotZeroes s cal o then zeroSlot s o (calUnit cal) cap
  else match slotUser s cal m with
    | some (it, b) => if cap = 0 then s else issueItem s cal m cap it b
    | none => s

/-- What slot `m` of a calendar does. -/
def runSlot (s : State) (cal m : Nat) : State :=
  if calClass cal = 4 then pfcAll (egressSlot s (calUnit cal) m) (calUnit cal)
  else
    let cap := cutCapacity (slotNs (calClass cal)) (slotLen s cal m) (slotCapacity s cal)
    if ownerIdles s (slotOwner s cal m) || linkIdle s cal then s
    else if calClass cal = 3 then dieSlot s cal m cap
    else transferSlot s cal m cap

/-- Where a phase stands in a tick. -/
def phaseRank : Phase → Nat | .openP => 0 | .work => 1 | .coppice => 2 | .commit => 3

/-- The time of slot `m` has come: it starts before the tick ends, and not in a phase that is still to come (R73). Before the first
boundary after START the slots only follow one another. -/
def slotDue (s : State) (cal m : Nat) : Bool :=
  !(timed s) || (decide (slotStart cal m < tickNs s.tck) && decide (phaseRank (slotPhase s cal m) ≤ phaseRank s.tck.phase))

/-- CALENDAR_SLOT_START: the next slot of a calendar starts: slot 0 at the boundary, then one after the other (R73, R74, R302). The
calendars run while the tick unit does and the module is on. -/
def execCalendarSlotStart (cal : CalId) (s : State) : Result :=
  .next <|
    let m := (calAt s cal.val).begun
    if ticking s ∧ slotDue s cal.val m then
      runSlot (modCal s cal.val fun k => { k with slotIdx := m % 1024, begun := m + 1, used := 0 }) cal.val m
    else s

end Sys2Proof.Machine
end

