-- ==== Sys2Proof/Machine/Boundary.lean ====
section
/-! DEFINITION. Machine/Boundary.lean: the tick boundary (R46): what becomes of the slot that ended (R47, R50–R53, R361), what
applies (R30, R43, R73, R84, R92, R384, R394), what is sampled (R395, R396, R420, R423), and what OPEN delivers to each hedge (R32,
R161, R230, R246, R255, R271, R272, R293, R337). -/

namespace Sys2Proof.Machine

/-! ### The slot that ended (R47, R50–R53) -/

/-- TCK_HSTAT.OUTCOME of a slot: 0 committed, then a fault, a missed end marker, divergence. A tick that never reached its commit
point is discarded as for a fault (entry 26). -/
def slotOutcome (i : Inst) : Nat :=
  if i.committed then 0 else if i.dFault then 2 else if i.dMissed then 1 else if i.dDiverged then 3 else 2

/-- A STOP or a reshape of the hedge awaits this boundary: it leaves RUNNING (R99, R103). -/
def leavesNow (s : State) (h : Nat) : Bool :=
  s.staged.any fun o => o.inst == h && match o.op with | .stop => true | .reshape _ => true | _ => false

/-- The counters of a RUNNING hedge after its slot (R47, R53): a commit moves the hedge tick, a discard the lag. `leaves` says that
it leaves RUNNING now: a discarded tick then waits for the next RUN (R99, R103). -/
def countSlot (leaves : Bool) (i : Inst) : Inst :=
  if i.committed then { i with outcome := 0, consec := 0, replaying := false, redo := false, htick := i.htick + 1 }
  else { i with outcome := slotOutcome i, consec := i.consec + 1, replaying := true, redo := leaves, lag := i.lag + 1 }

/-- The marks of the next tick: a fault found after the commit belongs to it (R51). -/
def nextMarks (i : Inst) : Inst :=
  { i with dFault := i.committed && i.dFault, dMissed := false, dDiverged := i.committed && i.dDiverged, committed := false
           endMarker := false }

/-- A discarded tick leaves no trace (R52, R217, R267, R271). -/
def revertHedge (s : State) (h : Nat) : State :=
  let s1 := dropPending s h
  (clustersOf (instAt s1 h)).foldl (fun t c => modCluster t c fun k =>
    let y := revertCarried k
    { y with su := { y.su with ckptFlips := y.su.ckptBase } }) s1

/-- The event cause with which a hedge goes HELD at this boundary: one asked for during the tick, or three discards in a row
(R53, R361). -/
def heldCause (i : Inst) : Option Nat := i.holdNext.or (if 3 ≤ i.consec then some 1 else none)

/-- A hedge goes HELD: its entries are posted, the host is told, and code 0x4007 is logged (R53, R360, R361). -/
def holdHedge (s : State) (h cause : Nat) : State :=
  let s1 := modInst s h fun i => { i with st := .held, holdNext := none }
  let s2 := postEvent (postOwner s1 h) h 1 cause
  touch (logErr s2 { sev := .hold, srcType := 0x10, srcInst := h, code := 0x4007, inst := h, detail := cause }) (pgHdg h)

/-- What the boundary makes of the slot of a RUNNING hedge (R47, R50–R53). -/
def endSlot (s : State) (h : Nat) : State :=
  let i := instAt s h
  let s1 := if i.committed then s else revertHedge s h
  let s2 := modInst s1 h fun i => nextMarks (countSlot (leavesNow s h) i)
  match heldCause (instAt s2 h) with
  | some c => holdHedge s2 h c
  | none => s2

/-- A module whose slots the hedge owns retrains (R133). -/
def retrainsUnder (s : State) (h : Nat) : Bool :=
  (List.range 56).any fun m => (d2dAt s m).retraining && (moduleOwners s m).contains h

/-- A slot that a spare takeover takes is discarded without running (R384), and so is one whose hedge was found at fault after its
commit (R51), or one that begins while a module of the hedge's slots retrains (R133): the clusters stay stopped. -/
def beginSlot (s : State) (h : Nat) : State :=
  let down := retrainsUnder s h
  let s1 := modInst s h fun i => { i with dFault := i.dFault || i.skip || down, skip := false }
  if discarded (instAt s1 h) then stopClusters s1 h else s1

/-! ### Clusters and hedges at the boundary (R152, R161, R271, R272) -/

/-- A queue at the boundary: empty, its depth kept (R161). -/
def emptyQueue (q : Queue) : Queue := { depth := q.depth }

/-- A context at the boundary (R161). -/
def emptyCtx (x : Ctx) : Ctx :=
  { qN := emptyQueue x.qN, qE := emptyQueue x.qE, qS := emptyQueue x.qS, qW := emptyQueue x.qW, qU := emptyQueue x.qU }

/-- A sprig at the boundary: instruction memory, generator and published counters stay (R160, R161). -/
def emptySprig (x : Sprig) : Sprig :=
  { imem := x.imem, prog := x.prog, c0 := emptyCtx x.c0, c1 := emptyCtx x.c1, c2 := emptyCtx x.c2, c3 := emptyCtx x.c3
    lfsr := x.lfsr, pub := x.pub }

/-- A cluster at the boundary: commands, tags and accumulators are gone, carried state is restored (R152, R161, R272). -/
def clusterBoundary (k : Cluster) : Cluster :=
  restoreCarried { k with
    sprigs := mmap {} (fun _ x => emptySprig x) k.sprigs
    ops := [], stopped := false, qleft := none, illegal := none, landing := [], banks := []
    me := { k.me with queue := [], run := none, acc := [], accE0 := 0, kept := false }
    su := { k.su with queue := [], sweepRun := none, bndRun := none }
    drw := { k.drw with queue := [], run := none } }

/-- HBM transfers of the tick that ended are no longer waited for. -/
def isTickItem : ItemKind → Bool
  | .hbmOp .. => true
  | _ => false

/-- Every cluster, and what the tick left in meshes, calendars and ports (R73, R122, R126, R161). -/
def clearTick (s : State) : State :=
  { s with
    nets := []
    clusters := mmap {} (fun _ k => clusterBoundary k) s.clusters
    cals := mmap {} (fun _ k => { k with queue := k.queue.filter fun it => !(isTickItem it.kind) }) s.cals
    eth := mmap {} (fun _ e => { e with txBusy := [] }) s.eth }

/-- The annealing run of an instance that begins a tick (R217, R226, R227). -/
def freshAnneals (s : State) : State :=
  { s with insts := mmap {} (fun _ i => { i with ann := annealRevert s.tck.locked i.ann }) s.insts }

/-! ### Pages at the boundary -/

/-- HDG BORROW_SLOTS takes the slots borrowed in the tick that ended (R80). -/
def publishBorrow (s : State) : State :=
  { s with insts := mmap {} (fun _ i => { i with borrowSlots := BitVec.ofNat 32 i.borrowLive, borrowLive := 0 }) s.insts }

/-- PG_CTL.CLEAR takes effect (R452). -/
def clearHdr (h : PgHdr) : PgHdr :=
  if h.clearPend then { h with clearPend := false, cnt0 := 0, cnt1 := 0, cnt2 := 0, cnt3 := 0, cnt4 := 0, cnt5 := 0 } else h

def clearCounters (s : State) : State := { s with pgs := mmap {} (fun _ h => clearHdr h) s.pgs }

/-- The one message of the tick for rings with IRQ_MODE = 1 (R362, entry 26). -/
def sendDueMsix (s : State) : State :=
  ((s.rings.filter fun p => p.2.irqDue).map (·.1)).foldl (fun t r =>
    sendMsix (modRing t r fun x => { x with irqDue := false }) r) s

/-- Background tasks of the supervisor core that the tick master's duties find unfinished (R58; SUP PG_CNT4, entry 26). -/
def preemptTasks (s : State) : State := bumpBy s (pgSup (primarySup s)) 4 (b2n s.tck.bgFlash + b2n s.tck.bgTel)

/-! ### The loops and sensors of the module (R394–R397, R420, R423) -/

/-- Temperatures, coolant and the loops; a part at its trip temperature starts a save (R409). -/
def sampleModule (before : State) (i : BoundaryIn) (s : State) : State :=
  let s1 := coolantSample i.coolant (thermalSample i.temps s)
  let s2 := voltageLoop i (applyEnvelopes s1)
  let newCrit := !(newBits before.thm.critMap s2.thm.critMap).isEmpty
  let s3 := gradeLoop before newCrit i.inputW s2
  if tripped s3 i.temps then startSave s3 5 else s3

/-! ### OPEN (R32, R230, R246, R255, R293, R337) -/

/-- What OPEN delivers. -/
def openTick (i : BoundaryIn) (s : State) : State :=
  let s1 := (s.insts.map (·.1)).foldl publishInputs s
  let s2 := publishSensors (writeCountLines (snapshotTails s1))
  let s3 := fillClassA (loadSeeds i.seedLate s2)
  (runningIds s3).foldl openPeers s3

/-! ### The boundary -/

/-- What applies at a boundary after the slots have ended, in the order of 95_what_each_step_holds.md. -/
def applyBoundary (before : State) (s : State) : State :=
  let s1 := instIds.foldl (fun t id => resetBoundary (applySegClears t id) id) (switchRemaps s)
  let topiary := ((before.insts.filter fun p => p.2.st == .topiary).map (·.1)).filter fun id => (instAt s1 id).st == .topiary
  let s2 := applyStaged (topiary.foldl endTopiary s1)
  let s3 := applyFlowIncarn (applyPtpPort (applyChannels (runningAtBoundary before s2) s2))
  let s4 := (List.range 16).foldl applyBind s3
  let s5 := marginExhaustion (decideMargin before (restartCalendars before s4))
  applyForce (clearCounters (((s5.insts.filter fun p => formed p.2).map (·.1)).foldl annealBoundary s5))

/-- The whole boundary (R28, R46). The tick unit comes first: what the others write carries the new tick. -/
def boundary (i : BoundaryIn) (s : State) : State :=
  let s0 := ageKt (tickNs s.tck) (preemptTasks (sendDueMsix s))
  let s1 := tickCount s0
  let s2 := clearTick ((runningIds s1).foldl endSlot (publishBorrow s1))
  let s3 := applyBoundary s s2
  let runB := (s.insts.map (·.1)).any (runningAtBoundary s s3)
  let s4 := freshAnneals (tickUnit runB i s3)
  let s5 := (runningIds s4).foldl beginSlot (openTick i s4)
  pinSync s (tickOut (sampleModule s i s5))

/-- In a save no hedge runs any more: the boundary moves the tick unit alone (R410). -/
def savingBoundary (i : BoundaryIn) (s : State) : State :=
  tickOut (tickUnit false i (tickCount s))

/-- The boundary of the tick in progress has come: COMMIT runs, or the tick unit has been started or stepped (R28, R37, R40). -/
def boundaryDue (s : State) : Bool := s.tck.phase == .commit || s.tck.nextIndex.isSome

/-- TICK_BOUNDARY (R46). -/
def execTickBoundary (i : BoundaryIn) (s : State) : Result :=
  .next <|
    if ticking s ∧ boundaryDue s then
      if s.pwr.saving then savingBoundary i s else boundary i s
    else s

end Sys2Proof.Machine
end

