-- ==== Sys2Proof/Machine/Faults.lean ====
section
/-! DEFINITION. Machine/Faults.lean: an injected fault takes effect (R401, R456): the response of the real fault, its log entries
marked INJECTED. -/

namespace Sys2Proof.Machine

/-- The state a command answers. -/
def answered (r : Result) (s : State) : State := match r with | .next t => t | _ => s

/-- A number as an index below a bound, wrapped. -/
def wrapFin (n v : Nat) [NeZero n] : Fin n := Fin.ofNat n v

/-- Mark every log entry written after sequence number `seq` as injected (R401), and count those not yet counted. -/
def markInjected (seq : Word) (s : State) : State :=
  let isNew (e : ErrEntry) : Bool := decide (0 < (e.seq - seq).toNat ∧ (e.seq - seq).toNat ≤ (s.errs.seq - seq).toNat)
  let fresh := (s.errs.log.filter fun p => isNew p.2 && !p.2.injected).length
  bumpBy { s with errs := { s.errs with
    log := s.errs.log.map fun p => if isNew p.2 then (p.1, { p.2 with injected := true }) else p } } 6 5 fresh

/-- A supervisor is missed by the next of the ring (R387), or declared failed (R388). -/
def injectSup (s : State) (n code : Nat) : State :=
  if code = 0x5002 then answered (execHeartbeatMissed (wrapFin 4 n) (wrapFin 4 (n + 1)) s) s
  else if (supAt s n).failed then s else supFailed s n

/-- The PWR page: the input sags, a save starts, a field line turns SHORT (R404, R409, R426). -/
def injectPwr (s : State) (code target : Nat) : State :=
  if code = 0x8002 then answered (execSagWarn (BitVec.ofNat 16 (Nat.min s.pwr.vin.toNat 41999)) s) s
  else if code = 0x8003 then startSave s 1
  else answered (execFieldLineChange (wrapFin 17 target) 2 s) s

/-- The THM page: a critical temperature, which acts at the next boundary, a warning, the coolant warning (R397, R420, R423). -/
def injectThm (s : State) (code target : Nat) : State :=
  if code = 0x8001 then modThm s fun t => { t with injected := true }
  else if code = 0x8007 then
    touch (logErr s { sev := .note, srcType := 0x05, srcInst := 0, code := 0x8007, inst := 0, detail := target }) pgThm
  else logErr (bump s pgThm 2) { sev := .note, srcType := 0x05, srcInst := 0, code := 0x8008, inst := 0,
                                 detail := ofSigned 32 s.thm.coolT }

/-- The PCI page: a failover, or an uncorrectable PCIe error, of which the spec states the count and the code alone. -/
def injectPci (s : State) (n code : Nat) : State :=
  if code = 0x7002 then (if s.failedOver then s else failOver s)
  else logErr (bump s (pgPort n 1) 3) { sev := .note, srcType := 0x20, srcInst := n, code := 0x7003, inst := 0, detail := 0 }

/-- An HBC page: an error in the pseudo-channel that TARGET names, at a free row (R279, R281, R285). An instance page names no
stack; it takes stack 0. -/
def injectHbm (s : State) (d code target : Nat) : State :=
  let dpa := (d % 8) * 0x10_0000_0000 + Config.freeNat s.fresh % 4194304 * 16384 + target % 64 * 256
  let t := burn s 1
  if code = 0x1003 then correctable t (.line dpa) true
  else if code = 0x1004 then uncorrectable t (.line dpa) true
  else badLine { t with poison := mset t.poison false (dpa / 64) true } dpa

/-- A failed CRC retry on a module, in a free direction: the flit is of the hedge whose slot it is (R130). -/
def injectCrc (s : State) (m : Nat) : State :=
  let dir := Config.freeNat s.fresh % 2
  let cal := (moduleCals m).getD dir 0
  let h := slotOwner s cal ((calAt s cal).begun - 1)
  answered (execDieLinkCrcFail (wrapFin 56 m) (wrapFin 2 dir) (wrapFin 65 (if h ≤ 64 then h else 0)) false (burn s 1)) s

/-- A D2D page (R130–R133). -/
def injectD2d (s : State) (m code target : Nat) : State :=
  if code = 0x2003 then injectCrc s m
  else if code = 0x2006 then answered (execDieLinkLoss (wrapFin 56 m) s) s
  else if code = 0x2005 then degradeModule s m (target % 64)
  else answered (execDieLinkLaneRepair (wrapFin 56 m) (wrapFin 64 target) ((d2dAt s m).errThr + 1) s) s

/-- An XBR page: a stitch wire, or a refused slice access (R68, R127). -/
def injectXbr (s : State) (k code target : Nat) : State :=
  if code = 0x2007 then answered (execStitchWireFault (wrapFin 8 (k / 2)) (wrapFin 64 target) s) s
  else logErr (bump s (pgDie (k / 2) (k % 2)) 0)
    { sev := .note, srcType := 0x32, srcInst := k, code := 0x2009, inst := 0, detail := target }

/-- An AVS page: a conflict of its loop, or margin low (R394, R395). -/
def injectAvs (s : State) (d code : Nat) : State :=
  if code = 0x9001 then
    if 12 ≤ d then gradeConflict s
    else loopConflict (modAvs s d fun a => { a with vconf := a.vconf + 1 }) 2 0x33 d
  else logErr (modAvs s (d % 12) fun a => { a with marginLow := true })
    { sev := .note, srcType := 0x33, srcInst := d, code := 0x9002, inst := 0, detail := (avsAt s d).vnow }

/-- A CLU page: a flit error, a wall breach, a cluster fault (R66, R125, R381). -/
def injectClu (s : State) (c code : Nat) : State :=
  if code = 0x2001 then answered (execFlitEccError (wrapFin 512 c) false s) s
  else if code = 0x2002 then answered (execFlitEccError (wrapFin 512 c) true s) s
  else if code = 0x2008 then answered (execFlitAtClosedPort (wrapFin 512 c) s) s
  else clusterFaultAt s c true

/-- An MEX page: a free line of the cluster store, a lane's residue, a hang (R279, R285, R381). -/
def injectMe (s : State) (c code target : Nat) : State :=
  if code = 0x1001 then correctable s (.plainStore (wrapFin 512 c) (wrapFin 16384 (Config.freeNat s.fresh))) true
  else if code = 0x1002 then uncorrectable s (.plainStore (wrapFin 512 c) (wrapFin 16384 (Config.freeNat s.fresh))) true
  else if code = 0x3001 then residueFault s c (target % 16) true
  else unitHang s c .me true

/-- An SPG page: a sprig's memory or registers (R279, R381). -/
def injectSprig (s : State) (c code target : Nat) : State :=
  if code = 0x1001 then correctable s (.sprigMem (wrapFin 512 c) (wrapFin 16 target)) true
  else sprigFault s c (target % 16) code true

/-- An SUA page: its state memory, a field residue, a hang, a block noise source (R237–R239, R285, R381). -/
def injectSu (s : State) (c code target : Nat) : State :=
  if code = 0x1001 then correctable s (.suState (wrapFin 512 c)) true
  else if code = 0x1002 then uncorrectable s (.suState (wrapFin 512 c)) true
  else if code = 0x3002 then residueFault s c 16 true
  else if code = 0x3004 then unitHang s c .su true
  else
    let b := target % 64
    let k := clusterAt s c
    if (mget k.su.noise {} b).failed then s
    else
      noiseFailure (modCluster s c fun k => { k with su := failSource k.su b }) c b (!(mget k.su.noise {} (Nat.xor b 1)).failed)

/-- The ENT page: a class A channel fails one of its tests, which one is free (R242). -/
def injectClassA (s : State) (n : Nat) : State :=
  let rct := Config.freeNat s.fresh % 2 == 0
  classAFail (burn s 1) n rct (!rct) true

/-- The response to a code of a page (R401). -/
def injectPage (s : State) (p : Page) (code target : Nat) : State :=
  match p with
  | .tck => loseSource s
  | .sup n => injectSup s n code
  | .pwr => injectPwr s code target
  | .pwrI _ => injectPwr s code target
  | .thm => injectThm s code target
  | .ent => injectClassA s (target % 4)
  | .pci n => injectPci s n code
  | .eth n => answered (execEthLinkDown (wrapFin 4 n) (ethAt s n).up s) s
  | .hbc d => injectHbm s d code target
  | .hbcI _ => injectHbm s 0 code target
  | .d2d m => injectD2d s m code target
  | .xbr k => injectXbr s k code target
  | .avs d => injectAvs s d code
  | .avsDev => injectAvs s 12 code
  | .clu c => injectClu s c code
  | .mex c => injectMe s c code target
  | .spg c => injectSprig s c code target
  | .sua c => injectSu s c code target
  | .drw c => unitHang s c .draw true
  | .cnt c => divergeFault (logErr s { sev := .replay, srcType := 0x45, srcInst := c, code := 0x4001, inst := ownerOf s c,
                                       detail := clusterDetail c (pcol s c) }) (ownerOf s c)
  | _ => s

/-- A repair of a die-link lane takes place in OPEN alone (R59); the injection waits for it. -/
def injectWaits (s : State) (p : Page) (code : Nat) : Bool :=
  match p with
  | .d2d _ => (code == 0x2004 || code == 0x2005) && s.tck.phase != .openP
  | _ => false

/-- ERROR_INJECT_FIRE: the injection armed on the page at a PF BAR0 address takes effect, and GO returns to 0 (R401, R456). -/
def execErrorInjectFire (addr : BitVec 28) (s : State) : Result :=
  .next <|
    let pg := addr.toNat / 4096
    let h := hdrAt s pg
    let code := h.injCode.toNat
    if !h.injGo ∨ injectWaits s (pageOf pg) code then s
    else
      markInjected s.errs.seq
        (injectPage (modHdr s pg fun h => { h with injGo := false }) (pageOf pg) code h.injTarget.toNat)

end Sys2Proof.Machine
end

