-- ==== Sys2Proof/Machine/Matrix.lean ====
section
/-! DEFINITION. Machine/Matrix.lean: the matrix engine (R138–R158): its commands, exact durations, the three kinds of
accumulation, long accumulators, post-ops and conversions. A command's result is computed when the engine dispatches it and
is returned at its completion. -/

namespace Sys2Proof.Machine

/-! ### Commands (R156) -/

/-- An ME command decoded; `n` is N. -/
structure MeCmd where
  op : Nat
  mode : Nat
  outfmt : Nat
  postop : Nat
  acc : Bool
  keep : Bool
  sr : Bool
  satfp8 : Bool
  dep : Bool
  rsv : Bool
  e0 : Int
  a : Nat
  b : Nat
  c : Nat
  aux : Nat
  m : Nat
  k : Nat
  n : Nat
  deriving DecidableEq, Repr

def meCmd (u : UCmd) : MeCmd :=
  let w0 := u.w0.toNat
  let w1 := u.w1.toNat
  let w2 := u.w2.toNat
  let w3 := u.w3.toNat
  { op := bits w0 3 0, mode := bits w0 7 4, outfmt := bits w0 10 8, postop := bits w0 15 11, acc := bit w0 16,
    keep := bit w0 17, sr := bit w0 18, satfp8 := bit w0 19, dep := bit w0 20,
    rsv := bit w0 21 || bits w1 15 14 != 0 || bits w1 31 30 != 0 || bits w2 15 14 != 0 || bits w2 31 30 != 0,
    e0 := toSigned 10 (bits w0 31 22), a := bits w1 13 0 * 64, b := bits w1 29 16 * 64, c := bits w2 13 0 * 64,
    aux := bits w2 29 16 * 64, m := bits w3 11 0 + 1, k := bits w3 23 12 + 1, n := (bits w3 31 24 + 1) * 8 }

/-- How a mode accumulates (Table — ME modes). -/
inductive AccKind where
  | f32 | half | int | long
  deriving DecidableEq, Repr

def accKind (mode : Nat) : AccKind :=
  match mode with
  | 0 => .f32 | 1 => .f32 | 4 => .f32 | 5 => .f32 | 8 => .int | 9 => .long | 10 => .long | 11 => .long | _ => .half

/-- Input size in bytes. -/
def inSize (mode : Nat) : Nat :=
  match mode with | 4 => 1 | 5 => 1 | 6 => 1 | 7 => 1 | 8 => 1 | 11 => 4 | _ => 2

/-- Input format of the floating modes. -/
def inFmt (mode : Nat) : Fmt :=
  match mode with
  | 0 => bf16 | 2 => bf16 | 9 => bf16 | 4 => e4m3 | 6 => e4m3 | 5 => e5m2 | 7 => e5m2 | 11 => fp32 | _ => fp16

/-- Cycles per output group, C_g. -/
def groupCycles (mode k : Nat) : Nat :=
  match mode with
  | 0 => (k + 7) / 8 | 1 => (k + 7) / 8
  | 2 => (k + 15) / 16 | 3 => (k + 15) / 16 | 4 => (k + 15) / 16 | 5 => (k + 15) / 16 | 8 => (k + 15) / 16
  | 6 => (k + 31) / 32 | 7 => (k + 31) / 32
  | 9 => 4 * ((k + 7) / 8) | 10 => 4 * ((k + 7) / 8) | 11 => 4 * ((k + 7) / 8)
  | _ => 0

/-- G × C_g, the busy cycles (R140). -/
def busyCycles (c : MeCmd) : Nat := (c.m + 1) / 2 * (c.n / 8) * groupCycles c.mode c.k

/-- P, the load of the first B panel (R140). -/
def panelCycles (c : MeCmd) : Nat := (c.k * inSize c.mode + 7) / 8

/-- Output element size by OUTFMT. -/
def outSize (f : Nat) : Nat := match f with | 0 => 4 | 1 => 2 | 2 => 2 | 6 => 4 | _ => 1

/-- Row length of A: each row starts at a 64 B boundary (R141). -/
def aRow (c : MeCmd) : Nat := (c.k * inSize c.mode + 63) / 64 * 64

/-- The post-ops with a scale, and with a bias (Table — Post-op codes). -/
def hasScale (p : Nat) : Bool := p == 7 || p == 8 || p == 9
def hasBias (p : Nat) : Bool := p != 0

/-- Where the bias vector starts: after the scale, at a 64 B boundary (R154). -/
def biasAt (c : MeCmd) : Nat := c.aux + if hasScale c.postop then (4 * c.n + 63) / 64 * 64 else 0

/-- The command reads operands A and B. -/
def readsAb (c : MeCmd) : Bool := c.op == 1

/-- An operand lies beyond the cluster store (R157). -/
def beyondStore (c : MeCmd) : Bool :=
  let cLen := if c.op = 2 then 512 else if c.op = 1 ∨ c.op = 4 then c.m * c.n * outSize c.outfmt else 0
  (readsAb c && (decide (0x100000 < c.a + c.m * aRow c) || decide (0x100000 < c.b + c.k * c.n * inSize c.mode))) ||
    decide (0x100000 < c.c + cLen) ||
    ((c.op == 1 || c.op == 4) && hasBias c.postop && decide (0x100000 < biasAt c + 4 * c.n))

/-- The command is not executed (R156, R157). -/
def meBad (c : MeCmd) : Bool :=
  c.rsv || decide (4 < c.op) || decide (12 ≤ c.mode) || c.outfmt == 7 || decide (10 ≤ c.postop) ||
    (c.outfmt == 6 && c.mode != 8) || (accKind c.mode == .long && c.outfmt != 0 && c.op != 2) || beyondStore c

/-! ### Lanes -/

/-- A lane's drawing state: its generator and the words it has taken. -/
structure Lane where
  g : Word64
  words : Nat
  deriving DecidableEq, Repr

/-- A rounding of the lane: RNE, or stochastic with 13 drawn bits (R148, R245). -/
def laneRnd (sr : Bool) (l : Lane) : Rnd × Lane :=
  if sr then
    let r := lfsrStep l.g
    (.sr (r.1.toNat % 8192), { g := r.2, words := l.words + 1 })
  else (.rne, l)

/-- A product rounded once to FP32, with flags (R143, R145). -/
def product (a b : Fl) : Fl × BitVec 9 :=
  let r := mul32 a b
  (r.1, flagIf r.2.1 meInvalid ||| flagIf r.2.2 meFovf)

/-- An FP32 addition with flags (R145, R146). -/
def addF (a b : Fl × BitVec 9) : Fl × BitVec 9 :=
  let r := add32 a.1 b.1
  (r.1, a.2 ||| b.2 ||| flagIf r.2.1 meInvalid ||| flagIf r.2.2 meFovf)

/-- +0. -/
def plusZero : Fl × BitVec 9 := (.fin false 0 0, 0)

/-- A chunk sum: ((p0 + p1) + (p2 + p3)) + ((p4 + p5) + (p6 + p7)), missing positions +0 (R145, R146). -/
def chunkSum (p : List (Fl × BitVec 9)) : Fl × BitVec 9 :=
  let x (i : Nat) : Fl × BitVec 9 := p.getD i plusZero
  addF (addF (addF (x 0) (x 1)) (addF (x 2) (x 3))) (addF (addF (x 4) (x 5)) (addF (x 6) (x 7)))

/-- Cut a list into pieces of `n`, the last one shorter. -/
def pieces {α : Type} (n : Nat) : Nat → List α → List (List α)
  | 0, _ => []
  | f + 1, l => if l.isEmpty then [] else l.take n :: pieces n f (l.drop n)

/-- The chunk sums of the products, in ascending k. -/
def chunkSums (p : List (Fl × BitVec 9)) : List (Fl × BitVec 9) := (pieces 8 p.length p).map chunkSum

/-- FP32 accumulation: the chunk sums one at a time (R146). -/
def accF32 (start : Fl × BitVec 9) (p : List (Fl × BitVec 9)) : Fl × BitVec 9 := (chunkSums p).foldl addF start

/-- A step sum of half accumulation: c0 + c1, or (c0 + c1) + (c2 + c3) (R147). -/
def stepSum (mode : Nat) (c : List (Fl × BitVec 9)) : Fl × BitVec 9 :=
  let x (i : Nat) : Fl × BitVec 9 := c.getD i plusZero
  if mode = 6 ∨ mode = 7 then addF (addF (x 0) (x 1)) (addF (x 2) (x 3)) else addF (x 0) (x 1)

/-- Round a sum into the FP16 running sum, once (R147). -/
def halfRound (sr : Bool) (x : Fl) (inv : Bool) (fl : BitVec 9) (l : Lane) : (Fl × BitVec 9) × Lane :=
  let r := laneRnd sr l
  let y := roundFl fp16 r.1 x
  ((y.1, fl ||| flagIf inv meInvalid ||| flagIf y.2 meHovf), r.2)

/-- Half accumulation (R147). -/
def accHalf (mode : Nat) (sr : Bool) (start : (Fl × BitVec 9) × Lane) (p : List (Fl × BitVec 9)) :
    (Fl × BitVec 9) × Lane :=
  let n := if mode = 6 ∨ mode = 7 then 4 else 2
  let cs := chunkSums p
  (pieces n cs.length cs).foldl (fun a c =>
    let s := stepSum mode c
    let t := flAdd a.1.1 s.1
    halfRound sr t.1 t.2 (a.1.2 ||| s.2) a.2) start

/-! ### Long accumulators (R150–R152) -/

/-- m × 2^e in units of 2^e0, rounded to nearest even, and whether bits were lost. -/
def windowRound (m : Nat) (e e0 : Int) : Nat × Bool :=
  let (lo, rem, d) := scaleTo m e e0
  (if roundUp .rne lo rem d then lo + 1 else lo, rem != 0)

/-- Add an exact value (R150). -/
def longAdd (e0 : Int) (a : LAcc) (x : Fl) : LAcc :=
  if a.ovf then a
  else match x with
    | .fin n m e =>
      let w := windowRound m e e0
      let s := a.k + sgn n w.1
      let top : Int := (2 ^ 159 : Nat)
      if s < -top then { a with k := -top, ovf := true, loss := a.loss || w.2 }
      else if top - 1 < s then { a with k := top - 1, ovf := true, loss := a.loss || w.2 }
      else { a with k := s, loss := a.loss || w.2 }
    | _ => { a with nonfin := true }

/-- A kept value in another window (R152): how a command with another E0 continues it the rule does not say; it is rounded into the
new window as a product would be (DESIGN CHOICE, entry 53). -/
def rebase (old e0 : Int) (a : LAcc) : LAcc :=
  if old = e0 ∨ a.ovf then a
  else longAdd e0 { k := 0, loss := a.loss, ovf := false, nonfin := a.nonfin } (ofInt a.k old)

/-- The sticky flags of an accumulator. -/
def longFlags (a : LAcc) : BitVec 9 := flagIf a.loss meLoss ||| flagIf a.ovf meOvf ||| flagIf a.nonfin meNonfin

/-- Readout rounded once to FP32 (R151). With NONFIN and OVF both set the rule gives two results, and which of them stands is free
(entry 53). -/
def longRead (e0 : Int) (a : LAcc) : Fl × BitVec 9 :=
  if a.nonfin ∧ (!a.ovf ∨ Config.unstated 9 a.k.natAbs 0 = 0) then (.nan, 0)
  else if a.ovf then (.inf (decide (a.k < 0)), 0)
  else let r := roundFl fp32 .rne (ofInt a.k e0)
       (r.1, flagIf r.2 meFovf)

/-- The 32 B that LACC_READ writes for a lane, with the command's flag word (R151). -/
def longBytes (e0 : Int) (a : LAcc) (word : BitVec 9) : List Byte :=
  leBytes 20 (ofSigned 160 a.k) ++ leBytes 2 (ofSigned 16 e0) ++ leBytes 2 0 ++ leBytes 4 word.toNat ++ leBytes 4 0

/-! ### Elements -/

/-- A value of the accumulator as the post-op sees it: FP32 or FP16, an exact integer, or a long accumulator. -/
inductive AccVal where
  | fl (x : Fl)
  | int (i : Int)
  | long (a : LAcc)
  deriving DecidableEq, Repr

/-- Element of A as bits (R141). -/
def aElem (st : Bytes) (c : MeCmd) (row k : Nat) : Nat :=
  readLe st (c.a + row * aRow c + k * inSize c.mode) (inSize c.mode)

/-- Element of B as bits (R141). Panels follow one another without a gap: the rule gives a panel's inside alone (DEDUCED,
entry 53). -/
def bElem (st : Bytes) (c : MeCmd) (k col : Nat) : Nat :=
  readLe st (c.b + col / 8 * (c.k * 8 * inSize c.mode) + (k * 8 + col % 8) * inSize c.mode) (inSize c.mode)

/-- Address of an element of C: row-major (R141). -/
def cAddr (c : MeCmd) (row col : Nat) : Nat := c.c + (row * c.n + col) * outSize c.outfmt

/-- C_in, in OUTFMT (R141, entry 20). -/
def cIn (st : Bytes) (c : MeCmd) (row col : Nat) : AccVal :=
  let w := if row < c.m then readLe st (cAddr c row col) (outSize c.outfmt) else 0
  match c.outfmt with
  | 0 => .fl (decodeFl fp32 w) | 1 => .fl (decodeFl bf16 w) | 2 => .fl (decodeFl fp16 w)
  | 3 => .fl (decodeFl e4m3 w) | 4 => .fl (decodeFl e5m2 w) | 5 => .int (toSigned 8 w) | _ => .int (toSigned 32 w)

/-- An accumulator value in floating point. -/
def accFl (e0 : Int) : AccVal → Fl × BitVec 9
  | .fl x => (x, 0)
  | .int i => (rnd32 (ofInt i 0), 0)
  | .long a => longRead e0 a

/-- The 48-bit integer accumulator (R149): what a value beyond it leaves there no rule states, so it is free (entry 53). -/
def acc48 (i : Int) : Int :=
  if -(2 ^ 47 : Nat) ≤ i ∧ i < (2 ^ 47 : Nat) then i else (Config.unstated 10 i.natAbs 0).toInt

/-- C_in as the integer accumulator takes it (R149). A floating C_in that is a whole number enters as it is; what any other enters
as the rule does not state, so it is free (entry 53). -/
def accInt : AccVal → Int
  | .int i => i
  | .fl x => match x with
    | .fin n m e => if (scaleTo m e 0).2.1 = 0 then acc48 (sgn n (scaleTo m e 0).1) else (Config.unstated 7 m e.natAbs).toInt
    | _ => (Config.unstated 11 (to32 x).toNat 0).toInt
  | .long a => a.k

/-- One output element of a MATMUL: the lane's accumulator value, flags, and drawing state (R143–R150). `kept` is the long
accumulator the lane continues; its sticky flags count among the command's (R158; DESIGN CHOICE, entry 53). A lane of the missing
row computes on zeros (R139). -/
def matElem (st : Bytes) (c : MeCmd) (kept : LAcc) (row col : Nat) (l : Lane) : AccVal × BitVec 9 × Lane :=
  let ks := List.range c.k
  let val (w : Nat) : Fl := decodeFl (inFmt c.mode) w
  let a (k : Nat) : Nat := if row < c.m then aElem st c row k else 0
  let b (k : Nat) : Nat := if row < c.m then bElem st c k col else 0
  let prods : List (Fl × BitVec 9) := ks.map fun k => product (val (a k)) (val (b k))
  let zero : AccVal := match accKind c.mode with | .int => .int 0 | _ => .fl (.fin false 0 0)
  let start : AccVal := if c.acc then cIn st c row col else zero
  match accKind c.mode with
  | .f32 =>
    let r := accF32 ((accFl c.e0 start).1, 0) prods
    (.fl r.1, r.2, l)
  | .half =>
    let x := (accFl c.e0 start).1
    let s := if c.acc then halfRound c.sr x false 0 l else ((x, 0), l)
    let r := accHalf c.mode c.sr s prods
    (.fl r.1.1, r.1.2, r.2)
  | .int =>
    let d := (ks.map fun k => toSigned 8 (a k) * toSigned 8 (b k)).sum
    (.int (acc48 (accInt start + d)), 0, l)
  | .long =>
    let a0 := if c.acc then longAdd c.e0 kept (accFl c.e0 start).1 else kept
    let r := ks.foldl (fun r k => longAdd c.e0 r (flMul (val (a k)) (val (b k))).1) a0
    (.long r, longFlags r, l)

/-- The activation of a post-op (R153, R154). SiLU of −∞, where x × sigmoid(x) is no number, is free (entry 53). -/
def activate (postop : Nat) (x : Fl) : Fl :=
  let positive := flLt (.fin false 0 0) x
  let relu : Fl := if isNan x then .nan else if positive then x else .fin false 0 0
  match postop with
  | 2 => relu | 8 => relu
  | 3 => if flLt x (.fin false 0 0) then rnd32 (flMul x (.fin false 1 (-3))).1 else x
  | 4 => f32 (within2 fnTanh (to32 x) (flTanh x))
  | 9 => f32 (within2 fnTanh (to32 x) (flTanh x))
  | 5 => f32 (within2 fnSigmoid (to32 x) (flSigmoid x))
  | 6 => if x = .inf true then f32 (Config.unstated 8 0 0) else f32 (within2 fnSilu (to32 x) (flMul x (flSigmoid x)).1)
  | _ => x

/-- Convert to OUTFMT (R153, R155). An FP32 result goes to INT32 as R155 takes one to INT8: the rule names INT8 alone (DEDUCED,
entry 53). -/
def convertOut (c : MeCmd) (x : Fl) (r : Rnd) : Nat × BitVec 9 :=
  let std (f : Fmt) (ov : BitVec 9) : Nat × BitVec 9 :=
    let y := encodeFl f r x
    (y.1, flagIf y.2 ov)
  match c.outfmt with
  | 0 => std fp32 meFovf
  | 1 => std bf16 meFovf
  | 2 => std fp16 meHovf
  | 3 => toFp8 e4m3 c.satfp8 r x
  | 4 => toFp8 e5m2 c.satfp8 r x
  | 5 => toInt8 r x
  | _ =>
    match x with
    | .nan => (0, meInvalid)
    | .inf n => (if n then 0x80000000 else 0x7FFFFFFF, meIsat)
    | .fin n m e =>
      let i := sgn n (roundAt r m e 0)
      (ofSigned 32 (sat32 i), flagIf (decide (sat32 i ≠ i)) meIsat)

/-- The post-op on one element (R153), and its conversion. Raw INT32 is the saturated accumulator (R149). -/
def postElem (st : Bytes) (c : MeCmd) (v : AccVal) (col : Nat) (l : Lane) : Nat × BitVec 9 × Lane :=
  match c.postop, c.outfmt, v with
  | 0, 6, .int i => (ofSigned 32 (sat32 i), flagIf (decide (sat32 i ≠ i)) meIsat, l)
  | _, _, _ =>
    let x0 := accFl c.e0 v
    let x1 := if hasScale c.postop then
        let m := mul32 x0.1 (decodeFl fp32 (readLe st (c.aux + 4 * col) 4))
        (m.1, x0.2 ||| flagIf m.2.1 meInvalid ||| flagIf m.2.2 meFovf)
      else x0
    let x2 := if hasBias c.postop then addF x1 (decodeFl fp32 (readLe st (biasAt c + 4 * col) 4), 0) else x1
    let r := laneRnd c.sr l
    let y := convertOut c (activate c.postop x2.1) r.1
    (y.1, x2.2 ||| y.2, r.2)

/-- The outcome of a command as it is built up: the store it writes, flags, accumulators and lanes. -/
structure MeOut where
  store : Bytes
  flags : BitVec 9
  acc : FMap LAcc
  lanes : FMap Word64
  words : Nat
  deriving DecidableEq, Repr

/-- One element of one group, lane `l` (R139). `first` is the command's first group, into which kept accumulators continue. A lane of
the missing row draws for its roundings as every lane does (R148), and writes nothing. -/
def runElem (st : Bytes) (c : MeCmd) (kept : FMap LAcc) (first : Bool) (row col l : Nat) (o : MeOut) : MeOut :=
  let g : Lane := { g := mget o.lanes 0 l, words := 0 }
  let r := if c.op = 4 then (cIn st c row col, (0 : BitVec 9), g)
    else matElem st c (if first then mget kept {} l else {}) row col g
  let p := postElem st c r.1 col r.2.2
  { store := if row < c.m then writeLe o.store (cAddr c row col) (outSize c.outfmt) p.1 else o.store
    flags := o.flags ||| r.2.1 ||| (if row < c.m then p.2.1 else 0)
    acc := match r.1 with | .long a => mset o.acc {} l a | _ => o.acc
    lanes := mset o.lanes 0 l p.2.2.g
    words := o.words + p.2.2.words }

/-- The groups in row-major order, and the lanes of each (R139). -/
def runGroups (st : Bytes) (c : MeCmd) (kept : FMap LAcc) (o : MeOut) : MeOut :=
  (List.range ((c.m + 1) / 2)).foldl (fun o i =>
    (List.range (c.n / 8)).foldl (fun o j =>
      (List.range 16).foldl (fun o l =>
        runElem st c kept (decide (i = 0 ∧ j = 0)) (2 * i + l / 8) (8 * j + l % 8) l o) o) o) o

/-! ### Dispatch and completion (R140, R142, R157, R158) -/

/-- The command at the head of the engine's queue, when the engine can dispatch it. -/
def meHead (s : State) (k : Cluster) (op : Nat) : Option UCmd :=
  if clusterRuns s k && k.me.run.isNone then
    match k.me.queue with
    | u :: _ => if (meCmd u).op = op then some u else none
    | [] => none
  else none

/-- The WORK cycle of completion (R140). -/
def meDone (e : Me) (u : UCmd) (c : MeCmd) : Nat :=
  if u.at_ < e.lastDone then
    if c.dep then e.lastDone + 16 + panelCycles c + busyCycles c else e.lastDone + busyCycles c
  else u.at_ + 16 + panelCycles c + busyCycles c

/-- The accumulators with which a command starts (R152). -/
def startAcc (e : Me) (c : MeCmd) : FMap LAcc :=
  if e.kept then (if accKind c.mode = .long ∨ c.op = 2 then mmap {} (fun _ a => rebase e.accE0 c.e0 a) e.acc else e.acc)
  else []

/-- The WORK cycle from which a command reads the store: from its issue on when it may run into the command before it (R140, R142). -/
def meFrom (e : Me) (u : UCmd) (c : MeCmd) : Nat := if c.dep then Nat.max u.at_ e.lastDone else u.at_

/-- The bytes that a command writes, from C_ADDR on. -/
def meLen (c : MeCmd) : Nat :=
  if c.op = 2 then 512 else if c.op = 1 ∨ c.op = 4 then c.m * c.n * outSize c.outfmt else 0

/-- The ranges of the store that a command reads: A, B, C_in, and the scale and bias vectors. -/
def meReads (c : MeCmd) : List (Nat × Nat) :=
  (if c.op = 1 then [(c.a, c.m * aRow c), (c.b, c.k * c.n * inSize c.mode)] else []) ++
    (if c.op = 4 ∨ (c.op = 1 ∧ c.acc) then [(c.c, meLen c)] else []) ++
    (if (c.op = 1 ∨ c.op = 4) ∧ hasBias c.postop then [(c.aux, biasAt c + 4 * c.n - c.aux)] else [])

/-- Dispatch a command: its effect by `act` on the store as it reads it, its lines written by its completion (R142), or ILLEGAL with
its planned cycles counted as stalls (R157). Those are taken to be G × C_g, the cycles that the engine would have counted (DESIGN
CHOICE, entry 53). -/
def meDispatch (s : State) (cl : Nat) (u : UCmd) (act : MeCmd → Bytes → FMap LAcc → MeOut → MeOut) : State :=
  let k := clusterAt s cl
  let e := k.me
  let c := meCmd u
  let done := meDone e u c
  let began := Nat.max u.at_ e.lastDone
  if meBad c then
    modCluster s cl fun k => { k with
      illegal := k.illegal.or (some (0x41, 0x044))
      me := { e with
        queue := e.queue.tail, run := some { cmd := u, ret := [(meIllegal.setWidth 32 : Word)], done := done }, began := began,
        lastDone := done, groupEnd := done, stall := e.stall + busyCycles c, seq := e.seq + 1,
        ill := e.ill.or (some e.seq), kept := c.keep } }
  else
    let m := storeSeen k (meFrom e u c) done s.fresh
    let kept := startAcc e c
    let o := act c m.1 kept { store := [], flags := 0, acc := kept, lanes := e.lfsr, words := 0 }
    modCluster ((meReads c).foldl (fun s r => reportPoison s cl r.1 r.2) (burn s m.2)) cl fun k => landRange { k with
      me := { e with
        queue := e.queue.tail, run := some { cmd := u, ret := [o.flags.setWidth 32], done := done }, began := began,
        lastDone := done, groupEnd := done, seq := e.seq + 1, busy := e.busy + busyCycles c, acc := o.acc,
        accE0 := if accKind c.mode = .long ∨ c.op = 2 then c.e0 else e.accE0,
        lastE0 := if accKind c.mode = .long then BitVec.ofInt 10 c.e0 else e.lastE0,
        kept := c.keep, lfsr := o.lanes, bits := e.bits + 13 * o.words } } began done c.c (readBytes o.store c.c (meLen c))

/-- ME_MATMUL (OP 1): C = A × B, or C_in + A × B (R139). -/
def execMeMatmul (c : Cl) (s : State) : Result :=
  .next <| match meHead s (clusterAt s c.val) 1 with
    | some u => meDispatch s c.val u fun m st kept o => runGroups st m kept o
    | none => s

/-- LACC_READ (OP 2): each lane writes 32 B (R151), lane l at C_ADDR + 32 l: the rule gives no place (DEDUCED, entry 53). -/
def execLaccRead (c : Cl) (s : State) : Result :=
  .next <| match meHead s (clusterAt s c.val) 2 with
    | some u => meDispatch s c.val u fun m _ kept o =>
        let f := (List.range 16).foldl (fun f l => f ||| longFlags (mget kept {} l)) o.flags
        { o with
          store := (List.range 16).foldl (fun st l => writeBytes st (m.c + 32 * l) (longBytes m.e0 (mget kept {} l) f)) o.store
          flags := f }
    | none => s

/-- LACC_CLEAR (OP 3): the long accumulators are zero (R150). -/
def execLaccClear (c : Cl) (s : State) : Result :=
  .next <| match meHead s (clusterAt s c.val) 3 with
    | some u => meDispatch s c.val u fun _ _ _ o => { o with acc := [] }
    | none => s

/-- POST (OP 4): the post-op on C_in only. -/
def execPost (c : Cl) (s : State) : Result :=
  .next <| match meHead s (clusterAt s c.val) 4 with
    | some u => meDispatch s c.val u fun m st kept o => runGroups st m kept o
    | none => s

/-- NOP (OP 0), and the reserved OPs, which are ILLEGAL (R156, R157). -/
def execMeNop (c : Cl) (s : State) : Result :=
  .next <|
    let k := clusterAt s c.val
    if clusterRuns s k && k.me.run.isNone then
      match k.me.queue with
      | u :: _ =>
        if (meCmd u).op = 0 ∨ 4 < (meCmd u).op then meDispatch s c.val u fun _ _ _ o => o else s
      | [] => s
    else s

/-- ME_COMMAND_COMPLETE (R158): the flag word returns to U and is ORed into MEX_FLAGS; while U is full the engine stalls
(R173). -/
def execMeCommandComplete (c : Cl) (s : State) : Result :=
  .next <|
    let k := clusterAt s c.val
    match k.me.run with
    | some r =>
      if !(clusterRuns s k) then s
      else if uRoom k r.cmd.sprig.val r.cmd.ctx 1 then
        let f : BitVec 9 := (r.ret.getD 0 0).setWidth 9
        modCluster s c.val fun k =>
          deliverU { k with me := { k.me with
            run := none, flags := k.me.flags ||| f, tickLive := k.me.tickLive ||| f, cmds := k.me.cmds + 1,
            flagged := k.me.flagged + (if f = 0 then 0 else 1) } } r.cmd.sprig.val r.cmd.ctx r.ret r.done
      else
        modCluster s c.val fun k => { k with me := { k.me with
          stall := k.me.stall + 1, run := some { r with done := r.done + 1 }, lastDone := k.me.lastDone + 1 } }
    | none => s

end Sys2Proof.Machine
end

