-- ==== Sys2Proof/Machine/Startup.lean ====
section
/-! DEFINITION. Machine/Startup.lean: device reset, module start and the start-up stages (R402, R430–R445, R448). -/

namespace Sys2Proof.Machine

/-! ### Reset and start (R402, R414, R415, R430, R431) -/

/-- What a device reset leaves: the reset state, with what flash, fuses and MRAM hold and whether the input permits a start (R430).
The counters that free values depend on go on, so no draw repeats (R2). -/
def resetState (s : State) : State :=
  { State.reset with
    pending := s.pending, fresh := s.fresh, epoch := s.epoch, out := s.out, nextXfer := s.nextXfer, nextFrame := s.nextFrame
    pwr := { mram0 := s.pwr.mram0, mram1 := s.pwr.mram1, interrupted := s.pwr.interrupted, permitted := s.pwr.permitted
             slotId := s.pwr.slotId, strapOpen := s.pwr.strapOpen }
    glb := { perst := s.glb.perst, fused0 := s.glb.fused0, fused1 := s.glb.fused1, bootSlot := s.glb.bootSlot
             lastRestored := s.glb.lastRestored, repairRec := s.glb.repairRec, repairLanes := s.glb.repairLanes
             repairStitch := s.glb.repairStitch, repairPcs := s.glb.repairPcs, flash := s.glb.flash, erases := s.glb.erases } }

/-- A save that was interrupted is logged at the start that follows it (R415). -/
def reportInterrupted (s : State) : State :=
  if s.pwr.interrupted then
    logErr (modPwr s fun p => { p with interrupted := false })
      { sev := .note, srcType := 0x04, srcInst := 0, code := 0x8004, inst := 0, detail := 0xFFFFFFFF }
  else s

/-- The stages run from the later of the permitted start and the release of PERST# (19_startup.md, Terms). -/
def fixT0 (s : State) : State := modGlb s fun g => { g with t0 := s.pwr.on && s.pwr.permitted && g.perst }

/-- The module restarts: everything is reset, and the stages begin when both conditions of t0 hold. -/
def restart (s : State) : State := pinSync s (fixT0 (reportInterrupted (resetState s)))

/-- DEVICE_RESET (R414, R430). A save in progress runs on; a module that is off and whose input is bad stays off. At power-up the
input has still to prove good; PERST# is low while it is asserted; a Hot Reset leaves it released. -/
def execDeviceReset (k : ResetKind) (s : State) : Result :=
  .next <|
    if s.pwr.saving ∧ s.pwr.on then s
    else match k with
      | .powerUp => restart (modGlb (modPwr s fun p => { p with permitted := false }) fun g => { g with perst := false })
      | .perst =>
        if s.pwr.on ∨ s.pwr.permitted then restart (modGlb s fun g => { g with perst := false })
        else modGlb s fun g => { g with perst := false }
      | .hotReset => if s.pwr.on then restart s else s

/-- PWR_STS shows the good input, and the bank that charges from it (R402, R406). -/
def showInput (s : State) : State :=
  touch (modPwr s fun p => { p with inputOk := p.permitted, charging := p.permitted && decide (p.holdC = 0 ∧ p.holdClass = 0) }) pgPwr

/-- MODULE_START: the input has been good for 100 ms (R402). A module that was off starts with a device reset. -/
def execModuleStart (s : State) : Result :=
  .next <|
    let s1 := modPwr s fun p => { p with permitted := true }
    if s.pwr.on then
      if s.pwr.permitted ∨ s.pwr.saving then s else fixT0 (reportInterrupted (showInput s1))
    else showInput (restart s1)

/-- PERST_DEASSERTION: the pin is released, and t0 is fixed once the start is permitted (R431). -/
def execPerstDeassertion (s : State) : Result :=
  .next (if s.glb.perst then s else fixT0 (modGlb s fun g => { g with perst := true }))

/-! ### FIRMWARE (R433–R435) -/

/-- The boot ROM of P0 (0) or P1 (1) accepts an image (R433). -/
def fwAccepts (g : Glb) (die : Nat) (m : FwImage) : Bool :=
  m.magic == 0x57465A57 && decide (m.length ≤ 8388608) && m.keyOk.getLsbD die && m.sigOk && m.digestOk &&
    decide ((if die = 0 then g.fused0 else g.fused1) ≤ m.svn)

/-- The image in a slot. -/
def fwIn (i : StageIn) (slot : Bool) : FwImage := if slot then i.fwB else i.fwA

/-- The slot that a ROM boots: the boot record's first, the other second (R434). -/
def fwChoice (g : Glb) (die : Nat) (i : StageIn) : Option Bool :=
  if fwAccepts g die (fwIn i g.bootSlot) then some g.bootSlot
  else if fwAccepts g die (fwIn i (!g.bootSlot)) then some (!g.bootSlot)
  else none

/-! ### The configuration image (R437–R439) -/

/-- The flash address of copy A or B. -/
def cfgBase (b : Bool) : Nat := if b then 0x1010000 else 0x1000000

/-- A little-endian field of a configuration copy. -/
def cfgField (g : Glb) (b : Bool) (off n : Nat) : Nat := leNat (flashBytes g (cfgBase b + off) n)

/-- The number of records. -/
def cfgCount (g : Glb) (b : Bool) : Nat := cfgField g b 6 2

/-- Record `r`: ADDR, VALUE and MASK. -/
def cfgRecord (g : Glb) (b : Bool) (r : Nat) : Nat × Nat × Nat :=
  (cfgField g b (32 + 12 * r) 4, cfgField g b (36 + 12 * r) 4, cfgField g b (40 + 12 * r) 4)

/-- The RW bits that a record may set in the word at a BAR0 offset (R437). -/
def cfgBits (s : State) (addr : Nat) : Nat :=
  let p := pageOf (addr / 4096)
  let off := addr % 4096
  let rw := match regAt s p off with | some r => r.rw | none => 0
  match p with
  | .glb | .tck | .pwr | .pwrI _ | .thm | .ent | .avsDev | .avs _ | .eth _ | .ptp | .calCtl => rw
  | .ktp _ => if off = 0x40 then rw else 0
  | .hbc _ => if off = 0x4C then rw else 0
  | .d2d _ => if off = 0x48 then rw else 0
  | _ => 0

/-- A record is valid: an aligned offset, and a mask of such bits alone. -/
def cfgRecordOk (s : State) (q : Nat × Nat × Nat) : Bool :=
  decide (q.1 % 4 = 0) && Nat.land q.2.2 (cfgBits s q.1) == q.2.2

/-- Why a copy is not valid, 0 when it is (CFG_STS.A_FAIL). -/
def cfgFail (s : State) (b readErr : Bool) : Nat :=
  let g := s.glb
  let n := cfgCount g b
  if readErr then 5
  else if cfgField g b 0 4 ≠ 0x47464357 ∨ cfgField g b 4 2 ≠ 1 ∨ cfgField g b 13 19 ≠ 0 then 1
  else if 4096 < n ∨ 65536 < 36 + 12 * n then 2
  else if crc32c (flashBytes g (cfgBase b) (32 + 12 * n)) ≠ cfgField g b (32 + 12 * n) 4 then 3
  else if (List.range n).all fun r => cfgRecordOk s (cfgRecord g b r) then 0
  else 4

/-- Fields that a boundary would decide take effect at once: no boundary has yet been, and no instance runs. -/
def settleStaged (s : State) : State :=
  applyEnvelopes (applyPtpPort (decideMargin s (decideT0 (decideCfg (decidePeriod false s)))))

/-- The records of a copy apply in order (R438). -/
def applyConfig (s : State) (b : Bool) : State :=
  settleStaged ((List.range (cfgCount s.glb b)).foldl (fun t r =>
    let q := cfgRecord s.glb b r
    writeWord t 0 (q.1 / 4096) (q.1 % 4096) (BitVec.ofNat 32 q.2.1) q.2.2) s)

/-- The configuration stage (R438): copy A, else B, else the factory defaults. -/
def configure (i : StageIn) (s : State) : State :=
  let a := cfgFail s false (i.cfgReadErr.getLsbD 0)
  let b := if a = 0 then 0 else cfgFail s true (i.cfgReadErr.getLsbD 1)
  let note (copy : Nat) (t : State) : State := modGlb t fun g => { g with
    copy := copy, aFail := a, bFail := b, defaulted := decide (copy = 2) }
  let use (c : Bool) : State :=
    let g := s.glb
    modGlb (applyConfig s c) fun h => { h with
      check := BitVec.ofNat 32 (cfgField g c (32 + 12 * cfgCount g c) 4), gen := BitVec.ofNat 32 (cfgField g c 8 4)
      noRestore := decide (cfgField g c 12 1 ≠ 0)
      measCfg := digest (flashBytes g (cfgBase c) (36 + 12 * cfgCount g c)) }
  touch (if a = 0 then note 0 (use false) else if b = 0 then note 1 (use true)
    else note 2 (modGlb s fun g => { g with measCfg := digest [] })) pgCfg

/-- FIRMWARE done: recovery mode, or the booted slot, the standby's verdict and the configuration image (R433–R435, R438). -/
def stageFirmware (i : StageIn) (s : State) : State :=
  match fwChoice s.glb 0 i with
  | none => modGlb s fun g => { g with stage := 8 }
  | some b =>
    let m := fwIn i b
    let s1 := modGlb s fun g => { g with
      stage := 2, slot := b, fwVersion := m.version, svn := m.svn, measFw := m.imageDigest, measFused0 := g.fused0
      measFused1 := g.fused1 }
    configure i (if fwChoice s.glb 1 i = some b then s1 else supFailed s1 1)

/-! ### MEMORY and LINKS -/

/-- MEMORY done: stacks trained, retired pseudo-channels from the repair record, and every frame and slice zero. -/
def stageMemory (i : StageIn) (s : State) : State :=
  let s1 := (List.range 8).foldl (fun t d => modStack t d fun k => { k with
    trained := i.stacksTrained.getLsbD d, retMap := mget s.glb.repairPcs 0 d }) s
  modGlb { s1 with mem := [], poison := [] } fun g => { g with stage := 3 }

/-- LINKS done: the modules of an edge that trained are up; recorded lanes move to spares again (R131, R132), and recorded stitch
groups use theirs. -/
def stageLinks (i : StageIn) (s : State) : State :=
  let s1 := (List.range 56).foldl (fun t m =>
    let bad := mget s.glb.repairLanes 0 m
    modD2d t m fun d => { d with
      up := decide (10 ≤ m / 4) || !(i.edgesFailed.getLsbD (m / 4)), badLane := bad, spares := Nat.min 4 (ones64 bad)
      degraded := decide (4 < ones64 bad) }) s
  modGlb { s1 with fabric := { s1.fabric with stitch := s.glb.repairStitch } } fun g => { g with stage := 4 }

/-! ### SELFTEST (R441–R443) -/

/-- The failed physical columns of a die row (R442 step 1). -/
def failedColumns (g : Glb) (i : StageIn) (d row : Nat) : List Nat :=
  (List.range 9).filter fun p => g.repairRec.contains (d * 72 + row * 9 + p) ||
    i.clustersFailed.any fun x => decide (x.1.val = d ∧ x.2.1.val = row ∧ x.2.2.val = p)

/-- The spare mapping of a die row (R442). -/
def mapRow (i : StageIn) (s : State) (key : Nat) : State :=
  let d := key / 8
  let row := key % 8
  let l := failedColumns s.glb i d row
  if l = [] then s
  else
    let f := (l.find? (· != 8)).getD 8
    let s1 : State := { s with fabric := { s.fabric with repMap := mset s.fabric.repMap 15 key f } }
    let s2 := (l.filter (· != f)).foldl (fun t p => makeUnavailable t (logicalAt t d row p)) s1
    l.foldl (fun t p => recordColumn t d row p) s2

/-- A compute die is disabled: its stack or its own self-test failed, or an edge to a die of lower index (R443). -/
def dieDisabled (s : State) (i : StageIn) (d : Nat) : Bool :=
  !(stackAt s d).trained || i.diesFailed.getLsbD d ||
    (List.range 10).any fun e => !(d2dAt s (e * 4)).up && decide ((edgeDies e).getLast? = some d)

/-- SELFTEST done: the repair map, unavailable clusters, the dies, and CAL_PWRBASE. -/
def stageSelftest (i : StageIn) (s : State) : State :=
  let s1 := (List.range 64).foldl (mapRow i) s
  let s2 := (List.range 512).foldl (fun t c => if dieDisabled s i (dieOf c) then makeUnavailable t (some c) else t) s1
  modGlb (modCalCtl s2 fun k => { k with pwrBase := i.pwrBase }) fun g => { g with
    stage := 5, diesC := BitVec.ofNat 8 (((List.range 8).map fun d => if dieDisabled s i d then 0 else 2 ^ d).sum)
    diesP := i.portsOk }

/-! ### ENTROPY and RESTORE (R418, R444, R448) -/

/-- ENTROPY done: the channels that passed deliver; with one the key DRBG is instantiated, with none the device is degraded. -/
def stageEntropy (i : StageIn) (s : State) : State :=
  let s1 := modEnt s fun e =>
    let e1 := instantiateKeys { e with ok := i.classAPass, fail := ~~~i.classAPass, starting := 0 }
    { e1 with seedMap := seedMapOf e1 }
  modGlb (touch (degradeStep s1) pgEnt) fun g => { g with stage := 6 }

/-- An MRAM holds a save set's header: MAGIC and FORMAT (R416). -/
def saveMagic (m : Bytes) : Bool := readLe m 0 4 == 0x53575A57 && readLe m 4 2 == 1

/-- The save set is valid: its header, HDR_CRC and SECT_CRC (R418). -/
def saveOk (m : Bytes) : Bool :=
  saveMagic m && crc32c (readBytes m 0 60) == readLe m 60 4 && sectCrc m == readLe m 28 4

/-- The save set that R418 picks, with whether it is P1's. -/
def chosenSave (s : State) : Option (Bytes × Bool) :=
  if saveOk s.pwr.mram0 then some (s.pwr.mram0, false) else if saveOk s.pwr.mram1 then some (s.pwr.mram1, true) else none

/-- CFG_RESTORE: 0 none present, 1 restored, 2 check mismatch, 3 already restored, 4 RESTORE = 1, 5 invalid (R448). -/
def restoreCode (s : State) : Nat :=
  match chosenSave s with
  | none => if saveMagic s.pwr.mram0 || saveMagic s.pwr.mram1 then 5 else 0
  | some (m, _) =>
    if s.glb.noRestore then 4
    else if seqIn m ≤ s.glb.lastRestored.toNat then 3
    else if readLe m 20 4 ≠ s.glb.check.toNat then 2
    else 1

/-- The keep of an instance in a save set, deciphered; none when its tag fails, or its record names another instance or
incarnation (R417, R419). -/
def restoredKeep (m : Bytes) (id : Nat) (incarn : Word) : Option (List Byte) :=
  let b := keepBase id
  let head := readBytes m b 8
  let iv := readBytes m (b + 8) 12
  let text := readBytes m (b + 64) 16384
  if head = keepHead id incarn ∧ readBytes m (b + 20) 16 = keepTag head iv text (seqIn m) then some (saveCipher iv text) else none

/-- One instance record is restored: a zero record is of an EMPTY instance, a RESETTING one comes back EMPTY with its incarnation
incremented, any other FORMED (Table — Restored state). -/
def restoreInst (m : Bytes) (s : State) (id : Nat) : State :=
  let f (o n : Nat) : Nat := readLe m (0x1000 + 256 * (id - 1) + o) n
  let incarn : Word := BitVec.ofNat 32 (f 4 4)
  if f 0 1 ≠ id ∨ f 1 1 = 0 then s
  else if f 1 1 = 6 then touch (modInst s id fun i => { i with incarn := incarn + 1 }) (pgHdg id)
  else
    let keep := if bit (f 57 1) 0 then restoredKeep m id incarn else none
    let s1 := modInst s id fun i => { i with
      st := .formed, x0 := f 20 1, y0 := f 21 1, w := f 22 1, h := f 23 1, slices := BitVec.ofNat 256 (f 24 32)
      borrow := bit (f 56 1) 0, gradeFast := bits (f 56 1) 2 1, gradeSlow := bits (f 56 1) 4 3, budget := f 58 2
      incarn := incarn, htick := BitVec.ofNat 64 (f 8 8), lag := BitVec.ofNat 32 (f 16 4), ran := true
      keep := keep.map fun b => (incarn, b)
      keepSts := if bit (f 57 1) 0 then (if keep.isSome then 1 else 3) else 0 }
    touch (takeClusters s1 id) (pgHdg id)

/-- The saved calendar tables become the active ones (R448). -/
def restoreTables (m : Bytes) (s : State) : State :=
  (List.range 97).foldl (fun t c => modCal t c fun k => { k with
    table := (List.range 1024).foldl (fun l n => mset l 0xFF n (byteAt m (0x5000 + 1024 * c + n)).toNat) [] }) s

/-- The severity with a number. -/
def sevOf (n : Nat) : Sev := match n with | 0 => .note | 1 => .absorb | 2 => .replay | 3 => .hold | _ => .safe

/-- The error log entry in 32 bytes (Table — Error log entry). -/
def errOf (l : List Byte) : ErrEntry :=
  { devTick := BitVec.ofNat 64 (imgLe l 0 8), offsetNs := BitVec.ofNat 32 (imgLe l 8 4), sev := sevOf (imgLe l 12 1 % 8)
    srcType := BitVec.ofNat 8 (imgLe l 13 1), srcInst := BitVec.ofNat 12 (imgLe l 14 2), code := BitVec.ofNat 16 (imgLe l 16 2)
    inst := imgLe l 18 1, lostBefore := bit (imgLe l 19 1) 0, injected := bit (imgLe l 19 1) 1, mirrored := bit (imgLe l 19 1) 2
    seq := BitVec.ofNat 32 (imgLe l 20 4), detail := BitVec.ofNat 64 (imgLe l 24 8) }

/-- The log entries of a save set: every entry has a code, and what is not written is zero. -/
def logIn (m : Bytes) : List ErrEntry :=
  ((List.range 1024).map fun n => errOf (readBytes m (0x1E000 + 32 * n) 32)).filter fun e => e.code != 0

/-- The saved log entries come before those logged since the reset, which are numbered on from them (R448). -/
def restoreLog (l : List ErrEntry) (s : State) : State :=
  let base := ((l.getLast?).map (·.seq)).getD 0
  let new := savedLog s.errs
  let all := l ++ (new.zip (List.range new.length)).map fun p => { p.1 with seq := base + BitVec.ofNat 32 (p.2 + 1) }
  { s with errs := { s.errs with
      log := (List.range all.length).zip all, head := all.length % 2048, tail := 0, count := all.length
      seq := base + BitVec.ofNat 32 new.length } }

/-- A counter goes on from its saved total. -/
def addSaved (m : Bytes) (off pg n : Nat) (s : State) : State :=
  modHdr s pg fun h => setCnt h n (cntAt h n + BitVec.ofNat 32 (readLe m off 4))

/-- The ERR, save and override counters go on from the saved totals (R448). -/
def restoreCounters (m : Bytes) (s : State) : State :=
  addSaved m 0x26024 pgThm 0 (addSaved m 0x26020 pgPwr 1 ((List.range 6).foldl (fun t n => addSaved m (0x26000 + 4 * n) 6 n t) s))

/-- A save set is restored (R418, R448). -/
def restoreSet (m : Bytes) (s : State) : State :=
  let s1 := restoreTables m (instIds.foldl (restoreInst m) s)
  modTck (modGlb (restoreCounters m (restoreLog (logIn m) s1)) fun g => { g with lastRestored := BitVec.ofNat 32 (seqIn m) })
    fun k => { k with devTick := BitVec.ofNat 64 (readLe m 8 8) + 1 }

/-- RESTORE done (R448): the result goes to CFG_RESTORE and, as code 0x8009, to the log. -/
def stageRestore (s : State) : State :=
  let code := restoreCode s
  let s1 := match chosenSave s with
    | some (m, p1) =>
      let t := modPwr s fun p => { p with
        saveValid := true, fromP1 := p1, cause := readLe m 6 1, saveSeq := BitVec.ofNat 32 (seqIn m) }
      if code = 1 then restoreSet m t else t
    | none => s
  logErr (modGlb s1 fun g => { g with stage := 7, restore := code })
    { sev := .note, srcType := 0x07, srcInst := 0, code := 0x8009, inst := 0, detail := code }

/-- READY: the tick unit starts as by START (R445). -/
def stageReady (i : StageIn) (s : State) : State :=
  modGlb (startTick s i.ptpNs) fun g => { g with ready := true, bootMs := i.bootMs % 65536 }

/-! ### The stages (R431) -/

/-- The stage in progress is done. In ROM the straps are read, and the input that permitted the start is shown (R402, R447). -/
def stageDone (i : StageIn) (s : State) : State :=
  match s.glb.stage with
  | 0 =>
    modGlb (showInput (modPwr s fun p => { p with slotId := i.slotId, strapOpen := i.slotOpen })) fun g => { g with stage := 1 }
  | 1 => stageFirmware i s
  | 2 => stageMemory i s
  | 3 => stageLinks i s
  | 4 => stageSelftest i s
  | 5 => stageEntropy i s
  | 6 => stageRestore s
  | 7 => stageReady i s
  | _ => s

/-- STARTUP_STAGE_DONE: the stages run from t0 until READY; recovery mode waits for a device reset (R431, R435). -/
def execStartupStageDone (i : StageIn) (s : State) : Result :=
  .next (if s.glb.t0 && s.pwr.on && !s.pwr.saving && !s.glb.ready then touch (stageDone i s) pgGlb else s)

end Sys2Proof.Machine
end

