-- ==== Sys2Proof/Machine/Telemetry.lean ====
section
/-! DEFINITION. Machine/Telemetry.lean: the telemetry job (R55, R56, R476). -/

namespace Sys2Proof.Machine

/-- The TEL page. -/
def pgTel : Nat := 7

/-- A snapshot falls due in the COPPICE of this tick (R476). An INTERVAL of 0 counts as 1. -/
def telDue (s : State) : Bool := s.tck.devTick.toNat % Nat.max 1 s.tel.interval == 0

/-- The busy cycles of a cluster's units in the tick just ended, as its pages publish them (INSTBUSY). -/
def clusterBusy (s : State) (c : Nat) : Nat :=
  (cntAt (hdrAt s (pgClu c 1)) 0).toNat + (cntAt (hdrAt s (pgClu c 2)) 0).toNat + (cntAt (hdrAt s (pgClu c 3)) 0).toNat +
    (cntAt (hdrAt s (pgClu c 3)) 1).toNat + (cntAt (hdrAt s (pgClu c 4)) 0).toNat

/-- INSTBUSY: in units of 1,024 cycles. -/
def instBusy (s : State) (id : Nat) : Nat := ((clustersOf (instAt s id)).map (clusterBusy s)).sum / 1024

/-- A list of readings as the 16-bit fields of a page. -/
def telFields (n : Nat) (l : List Nat) : FMap Nat := (List.range n).foldl (fun m k => mset m 0 k (l.getD k 0 % 65536)) []

/-- The snapshot is complete: all its values are published at once (R458, R476). -/
def telPublish (t : TelIn) (s : State) : State :=
  let s1 := instIds.foldl (fun u id => modInst u id fun i => { i with
    telPwr := t.insts.getD (id - 1) 0 % 65536, telBusy := instBusy s id % 2 ^ 32 }) s
  let s2 := modTel s1 fun x => { x with
    pending := false, used := 0, snapTick := x.startTick, coppices := (x.used + 1) % 65536
    diePwr := telFields 12 t.dies, hbmPwr := telFields 8 t.hbm }
  publishHdr (bump s2 pgTel 1) pgTel

/-- A snapshot falls due in this COPPICE, and is neither begun nor skipped yet. -/
def telNew (s : State) : Bool := s.tel.en && telDue s && decide (s.tel.seen ≠ some s.tck.devTick)

/-- What falls due is begun, or skipped and counted while the one before is incomplete. -/
def telBegin (s : State) : State :=
  if !(telNew s) then s
  else if s.tel.pending then bump (modTel s fun x => { x with seen := some s.tck.devTick }) pgTel 0
  else modTel s fun x => { x with seen := some s.tck.devTick, pending := true, used := 0, startTick := s.tck.devTick }

/-- TELEMETRY_SNAPSHOT: the job runs in COPPICE; one that falls due while another is incomplete is skipped and counted (R476). -/
def execTelemetrySnapshot (t : TelIn) (finished : Bool) (s : State) : Result :=
  .next <|
    if s.tck.phase ≠ .coppice ∨ !(s.tel.pending || telNew s) then s
    else
      let s1 := modTck (telBegin s) fun k => { k with bgTel := !finished }
      if finished then telPublish t s1 else touch s1 pgTel

end Sys2Proof.Machine
end

