-- ==== Sys2Proof/Machine/Dispatch.lean ====
section
/-! DEFINITION. Machine/Dispatch.lean: one arm per command, each a direct call of its meaning. -/

namespace Sys2Proof.Machine

def exec (i : Instr) (s : State) : Host.Outcome State Fault Refusal :=
  match i with
  | .tickBoundary b => Sys2Proof.Machine.execTickBoundary b s
  | .workStart => Sys2Proof.Machine.execWorkStart s
  | .coppiceStart => Sys2Proof.Machine.execCoppiceStart s
  | .commitStart => Sys2Proof.Machine.execCommitStart s
  | .commitPoint h => Sys2Proof.Machine.execCommitPoint h s
  | .mirrorCopyDone c => Sys2Proof.Machine.execMirrorCopyDone c s
  | .calendarSlotStart cal => Sys2Proof.Machine.execCalendarSlotStart cal s
  | .tckPeriodWrite v => Sys2Proof.Machine.execTckPeriodWrite v s
  | .tckCfgWrite v => Sys2Proof.Machine.execTckCfgWrite v s
  | .tckT0Write hi v => Sys2Proof.Machine.execTckT0Write hi v s
  | .tckInofsWrite v => Sys2Proof.Machine.execTckInofsWrite v s
  | .start ptpNs => Sys2Proof.Machine.execStart ptpNs s
  | .step ptpNs => Sys2Proof.Machine.execStep ptpNs s
  | .tickInEdge offsetNs gapNs => Sys2Proof.Machine.execTickInEdge offsetNs gapNs s
  | .tickInEdgeMissed => Sys2Proof.Machine.execTickInEdgeMissed s
  | .ppsInEdge ptpNs gapNs widthNs => Sys2Proof.Machine.execPpsInEdge ptpNs gapNs widthNs s
  | .trigInputEdge n ptpNs => Sys2Proof.Machine.execTrigInputEdge n ptpNs s
  | .lockAcquired => Sys2Proof.Machine.execLockAcquired s
  | .lockSourceLost => Sys2Proof.Machine.execLockSourceLost s
  | .lockSourceReturn phaseErr => Sys2Proof.Machine.execLockSourceReturn phaseErr s
  | .followerHoldoverLimit d => Sys2Proof.Machine.execFollowerHoldoverLimit d s
  | .patrolScrubStep d lines errs => Sys2Proof.Machine.execPatrolScrubStep d lines errs s
  | .pcMigrationStep d granules => Sys2Proof.Machine.execPcMigrationStep d granules s
  | .pcReadSwitch d => Sys2Proof.Machine.execPcReadSwitch d s
  | .noiseTrimPass c block ones => Sys2Proof.Machine.execNoiseTrimPass c block ones s
  | .flashWearStep finished => Sys2Proof.Machine.execFlashWearStep finished s
  | .telemetrySnapshot t finished => Sys2Proof.Machine.execTelemetrySnapshot t finished s
  | .calTableWrite cal w v => Sys2Proof.Machine.execCalTableWrite cal w v s
  | .calSwap cal => Sys2Proof.Machine.execCalSwap cal s
  | .marginWrite v => Sys2Proof.Machine.execMarginWrite v s
  | .planLoad r p => Sys2Proof.Machine.execPlanLoad r p s
  | .planLoadComplete h => Sys2Proof.Machine.execPlanLoadComplete h s
  | .run r => Sys2Proof.Machine.execRun r s
  | .stop r => Sys2Proof.Machine.execStop r s
  | .hedgeForm r => Sys2Proof.Machine.execHedgeForm r s
  | .hedgeReshape r => Sys2Proof.Machine.execHedgeReshape r s
  | .instanceReset r => Sys2Proof.Machine.execInstanceReset r s
  | .abortResend h => Sys2Proof.Machine.execAbortResend h s
  | .segmentZeroed h n => Sys2Proof.Machine.execSegmentZeroed h n s
  | .resetSequenceEnd h => Sys2Proof.Machine.execResetSequenceEnd h s
  | .vfFlr h => Sys2Proof.Machine.execVfFlr h s
  | .pfFlr => Sys2Proof.Machine.execPfFlr s
  | .dmaIn r data => Sys2Proof.Machine.execDmaIn r data s
  | .dmaOut r => Sys2Proof.Machine.execDmaOut r s
  | .drawEntropy r => Sys2Proof.Machine.execDrawEntropy r s
  | .traceRead r => Sys2Proof.Machine.execTraceRead r s
  | .sensorBind r => Sys2Proof.Machine.execSensorBind r s
  | .fence r => Sys2Proof.Machine.execFence r s
  | .descNop r => Sys2Proof.Machine.execDescNop r s
  | .transferDone id => Sys2Proof.Machine.execTransferDone id s
  | .doorbell f r v => Sys2Proof.Machine.execDoorbell f r v s
  | .descriptorFetch r d => Sys2Proof.Machine.execDescriptorFetch r d s
  | .hostCompletionTimeout id => Sys2Proof.Machine.execHostCompletionTimeout id s
  | .pcieLinkDown link => Sys2Proof.Machine.execPcieLinkDown link s
  | .hostLinkFailover => Sys2Proof.Machine.execHostLinkFailover s
  | .failoverForce => Sys2Proof.Machine.execFailoverForce s
  | .p1LinkLost => Sys2Proof.Machine.execP1LinkLost s
  | .clusterFault d row pcol lost => Sys2Proof.Machine.execClusterFault d row pcol lost s
  | .takeoverCopyDone d row => Sys2Proof.Machine.execTakeoverCopyDone d row s
  | .unitHang c u => Sys2Proof.Machine.execUnitHang c u s
  | .flitEccError c multi => Sys2Proof.Machine.execFlitEccError c multi s
  | .flitAtClosedPort c => Sys2Proof.Machine.execFlitAtClosedPort c s
  | .dieLinkCrcFail m dir h retryOk => Sys2Proof.Machine.execDieLinkCrcFail m dir h retryOk s
  | .dieLinkLaneRepair m lane errs => Sys2Proof.Machine.execDieLinkLaneRepair m lane errs s
  | .dieLinkLoss m => Sys2Proof.Machine.execDieLinkLoss m s
  | .dieLinkRetrainDone m => Sys2Proof.Machine.execDieLinkRetrainDone m s
  | .stitchWireFault d group => Sys2Proof.Machine.execStitchWireFault d group s
  | .segmentEntryWrite h n w v => Sys2Proof.Machine.execSegmentEntryWrite h n w v s
  | .nop c p f => Sys2Proof.Machine.execNop c p f s
  | .add c p f => Sys2Proof.Machine.execAdd c p f s
  | .sub c p f => Sys2Proof.Machine.execSub c p f s
  | .and c p f => Sys2Proof.Machine.execAnd c p f s
  | .or c p f => Sys2Proof.Machine.execOr c p f s
  | .xor c p f => Sys2Proof.Machine.execXor c p f s
  | .shl c p f => Sys2Proof.Machine.execShl c p f s
  | .shr c p f => Sys2Proof.Machine.execShr c p f s
  | .sra c p f => Sys2Proof.Machine.execSra c p f s
  | .mul c p f => Sys2Proof.Machine.execMul c p f s
  | .min c p f => Sys2Proof.Machine.execMin c p f s
  | .max c p f => Sys2Proof.Machine.execMax c p f s
  | .addi c p f => Sys2Proof.Machine.execAddi c p f s
  | .andi c p f => Sys2Proof.Machine.execAndi c p f s
  | .ori c p f => Sys2Proof.Machine.execOri c p f s
  | .shli c p f => Sys2Proof.Machine.execShli c p f s
  | .shri c p f => Sys2Proof.Machine.execShri c p f s
  | .lui c p f => Sys2Proof.Machine.execLui c p f s
  | .cmp c p f => Sys2Proof.Machine.execCmp c p f s
  | .cmpi c p f => Sys2Proof.Machine.execCmpi c p f s
  | .plog c p f => Sys2Proof.Machine.execPlog c p f s
  | .sel c p f => Sys2Proof.Machine.execSel c p f s
  | .fadd c p f => Sys2Proof.Machine.execFadd c p f s
  | .fsub c p f => Sys2Proof.Machine.execFsub c p f s
  | .fmul c p f => Sys2Proof.Machine.execFmul c p f s
  | .fma c p f => Sys2Proof.Machine.execFma c p f s
  | .fdiv c p f => Sys2Proof.Machine.execFdiv c p f s
  | .fsqrt c p f => Sys2Proof.Machine.execFsqrt c p f s
  | .fcvt c p f => Sys2Proof.Machine.execFcvt c p f s
  | .ld c p f => Sys2Proof.Machine.execLd c p f s
  | .st c p f => Sys2Proof.Machine.execSt c p f s
  | .ldh c p f => Sys2Proof.Machine.execLdh c p f s
  | .sth c p f => Sys2Proof.Machine.execSth c p f s
  | .ldc c p f => Sys2Proof.Machine.execLdc c p f s
  | .stc c p f => Sys2Proof.Machine.execStc c p f s
  | .xfer c p f => Sys2Proof.Machine.execXfer c p f s
  | .xferRemoteServe c tag => Sys2Proof.Machine.execXferRemoteServe c tag s
  | .xferComplete c tag bad => Sys2Proof.Machine.execXferComplete c tag bad s
  | .push c p f => Sys2Proof.Machine.execPush c p f s
  | .pop c p f => Sys2Proof.Machine.execPop c p f s
  | .peek c p f => Sys2Proof.Machine.execPeek c p f s
  | .queueEntryArrival c p x q => Sys2Proof.Machine.execQueueEntryArrival c p x q s
  | .queueCreditReturn c p x q => Sys2Proof.Machine.execQueueCreditReturn c p x q s
  | .mec c p f => Sys2Proof.Machine.execMec c p f s
  | .suc c p f => Sys2Proof.Machine.execSuc c p f s
  | .drc c p f => Sys2Proof.Machine.execDrc c p f s
  | .rnd c p f => Sys2Proof.Machine.execRnd c p f s
  | .loop c p f => Sys2Proof.Machine.execLoop c p f s
  | .qset c p f => Sys2Proof.Machine.execQset c p f s
  | .endI c p f => Sys2Proof.Machine.execEndI c p f s
  | .idle c p f => Sys2Proof.Machine.execIdle c p f s
  | .idleWaitEnd c p x => Sys2Proof.Machine.execIdleWaitEnd c p x s
  | .srd c p f => Sys2Proof.Machine.execSrd c p f s
  | .layingSlotSwitch c p => Sys2Proof.Machine.execLayingSlotSwitch c p s
  | .endMarkerReached h => Sys2Proof.Machine.execEndMarkerReached h s
  | .meMatmul c => Sys2Proof.Machine.execMeMatmul c s
  | .laccRead c => Sys2Proof.Machine.execLaccRead c s
  | .laccClear c => Sys2Proof.Machine.execLaccClear c s
  | .post c => Sys2Proof.Machine.execPost c s
  | .meNop c => Sys2Proof.Machine.execMeNop c s
  | .meCommandComplete c => Sys2Proof.Machine.execMeCommandComplete c s
  | .sweep c => Sys2Proof.Machine.execSweep c s
  | .apply c => Sys2Proof.Machine.execApply c s
  | .exportCmd c => Sys2Proof.Machine.execExportCmd c s
  | .exportArrival c tag => Sys2Proof.Machine.execExportArrival c tag s
  | .load c => Sys2Proof.Machine.execLoad c s
  | .rebuild c => Sys2Proof.Machine.execRebuild c s
  | .read c => Sys2Proof.Machine.execRead c s
  | .suSwap c => Sys2Proof.Machine.execSuSwap c s
  | .suNop c => Sys2Proof.Machine.execSuNop c s
  | .suCommandComplete c boundary => Sys2Proof.Machine.execSuCommandComplete c boundary s
  | .checkpoint h => Sys2Proof.Machine.execCheckpoint h s
  | .checkpointResult h => Sys2Proof.Machine.execCheckpointResult h s
  | .suaStagedWrite h off v => Sys2Proof.Machine.execSuaStagedWrite h off v s
  | .bestClr h => Sys2Proof.Machine.execBestClr h s
  | .draw c => Sys2Proof.Machine.execDraw c s
  | .drawNop c => Sys2Proof.Machine.execDrawNop c s
  | .drawComplete c => Sys2Proof.Machine.execDrawComplete c s
  | .classAFail n run window => Sys2Proof.Machine.execClassAFail n run window s
  | .classARetry mask => Sys2Proof.Machine.execClassARetry mask s
  | .classAStartupPass n samples => Sys2Proof.Machine.execClassAStartupPass n samples s
  | .ethFrameReceive n f => Sys2Proof.Machine.execEthFrameReceive n f s
  | .arpRequest n => Sys2Proof.Machine.execArpRequest n s
  | .neighbourSolicitation n => Sys2Proof.Machine.execNeighbourSolicitation n s
  | .pfcReceive n prios => Sys2Proof.Machine.execPfcReceive n prios s
  | .ptpMessageReceive => Sys2Proof.Machine.execPtpMessageReceive s
  | .ktPacketReceive n => Sys2Proof.Machine.execKtPacketReceive n s
  | .ktAckSend h ch => Sys2Proof.Machine.execKtAckSend h ch s
  | .ktAckReceive n => Sys2Proof.Machine.execKtAckReceive n s
  | .ktRetransmit h ch psn => Sys2Proof.Machine.execKtRetransmit h ch psn s
  | .boundaryFrameReceive n offsetNs => Sys2Proof.Machine.execBoundaryFrameReceive n offsetNs s
  | .ktAbortReceive n => Sys2Proof.Machine.execKtAbortReceive n s
  | .abortAckReceive n => Sys2Proof.Machine.execAbortAckReceive n s
  | .ethLinkDown n subs => Sys2Proof.Machine.execEthLinkDown n subs s
  | .ethLinkUp n subs => Sys2Proof.Machine.execEthLinkUp n subs s
  | .flowEntryWrite n f w v => Sys2Proof.Machine.execFlowEntryWrite n f w v s
  | .keyInstall n v => Sys2Proof.Machine.execKeyInstall n v s
  | .channelEntryWrite h ch w v => Sys2Proof.Machine.execChannelEntryWrite h ch w v s
  | .ptpCfgWrite v => Sys2Proof.Machine.execPtpCfgWrite v s
  | .sensorPacketReceive ch => Sys2Proof.Machine.execSensorPacketReceive ch s
  | .sensorFrameTimeout ch offsetNs => Sys2Proof.Machine.execSensorFrameTimeout ch offsetNs s
  | .heartbeat src dst term => Sys2Proof.Machine.execHeartbeat src dst term s
  | .heartbeatMissed src dst => Sys2Proof.Machine.execHeartbeatMissed src dst s
  | .supForce => Sys2Proof.Machine.execSupForce s
  | .errorInject addr v => Sys2Proof.Machine.execErrorInject addr v s
  | .errorInjectFire addr => Sys2Proof.Machine.execErrorInjectFire addr s
  | .avsVenvWrite d v => Sys2Proof.Machine.execAvsVenvWrite d v s
  | .gradeStepUp => Sys2Proof.Machine.execGradeStepUp s
  | .thermalOverrideClear => Sys2Proof.Machine.execThermalOverrideClear s
  | .moduleStart => Sys2Proof.Machine.execModuleStart s
  | .sagWarn mv => Sys2Proof.Machine.execSagWarn mv s
  | .sagWarnClear mv => Sys2Proof.Machine.execSagWarnClear mv s
  | .saveTrigger cause => Sys2Proof.Machine.execSaveTrigger cause s
  | .pwrShutdown => Sys2Proof.Machine.execPwrShutdown s
  | .savePowerDown => Sys2Proof.Machine.execSavePowerDown s
  | .saveComplete durationUs => Sys2Proof.Machine.execSaveComplete durationUs s
  | .saveBankExhausted => Sys2Proof.Machine.execSaveBankExhausted s
  | .leakDetected => Sys2Proof.Machine.execLeakDetected s
  | .shdnReq => Sys2Proof.Machine.execShdnReq s
  | .coolantTrip => Sys2Proof.Machine.execCoolantTrip s
  | .holdBankClassify b => Sys2Proof.Machine.execHoldBankClassify b s
  | .holdChargeRetry b => Sys2Proof.Machine.execHoldChargeRetry b s
  | .holdBankClassChange cls c esr => Sys2Proof.Machine.execHoldBankClassChange cls c esr s
  | .holdBankOvercurrent => Sys2Proof.Machine.execHoldBankOvercurrent s
  | .fieldLineChange line st => Sys2Proof.Machine.execFieldLineChange line st s
  | .fieldDriverRetry line => Sys2Proof.Machine.execFieldDriverRetry line s
  | .keepLoad h => Sys2Proof.Machine.execKeepLoad h s
  | .deviceReset k => Sys2Proof.Machine.execDeviceReset k s
  | .startupStageDone b => Sys2Proof.Machine.execStartupStageDone b s
  | .fwCommit => Sys2Proof.Machine.execFwCommit s
  | .fwActivate => Sys2Proof.Machine.execFwActivate s
  | .flashRead => Sys2Proof.Machine.execFlashRead s
  | .flashProgram => Sys2Proof.Machine.execFlashProgram s
  | .flashErase => Sys2Proof.Machine.execFlashErase s
  | .flashOpDone => Sys2Proof.Machine.execFlashOpDone s
  | .spdmRequest q via => Sys2Proof.Machine.execSpdmRequest q via s
  | .pldmRequest q addr => Sys2Proof.Machine.execPldmRequest q addr s
  | .pgCtlFreeze addr on => Sys2Proof.Machine.execPgCtlFreeze addr on s
  | .pgCtlClear addr => Sys2Proof.Machine.execPgCtlClear addr s
  | .pageLock addr on => Sys2Proof.Machine.execPageLock addr on s
  | .rcFieldRead f addr => Sys2Proof.Machine.execRcFieldRead f addr s
  | .registerWrite f addr v size => Sys2Proof.Machine.execRegisterWrite f addr v size s
  | .registerRead f addr size => Sys2Proof.Machine.execRegisterRead f addr size s
  | .pcieLinkUp link speed width => Sys2Proof.Machine.execPcieLinkUp link speed width s
  | .vfEnable h on => Sys2Proof.Machine.execVfEnable h on s
  | .perstDeassertion => Sys2Proof.Machine.execPerstDeassertion s
  | .ptpMessageTransmit k => Sys2Proof.Machine.execPtpMessageTransmit k s
  | .pfcPauseExpiry n prio => Sys2Proof.Machine.execPfcPauseExpiry n prio s
  | .linkEqualisation d eth lane want => Sys2Proof.Machine.execLinkEqualisation d eth lane want s

end Sys2Proof.Machine
end

