-- ==== Sys2Proof/Machine/Step.lean ====
section
/-! DEFINITION. Machine/Step.lean: a step of the block. It takes the command at the front of the queue and runs it; on an
empty queue the block idles (notes/assumptions/3.md). -/

namespace Sys2Proof.Machine

/-- Take the command at the front of the queue and run its meaning on the state with the rest of the queue; with nothing
waiting, nothing changes. -/
def step (s : State) : Host.Outcome State Fault Refusal :=
  match s.pending with
  | [] => .next s
  | c :: rest => exec c { s with pending := rest }

/-- The state with the command that a word of the table spells in front of its queue; no word spells one. -/
def State.withFetchWord (s : State) (nbits w : Nat) : State :=
  match decodeTableWord nbits w with
  | some c => { s with pending := c :: s.pending }
  | none => s

end Sys2Proof.Machine
end

