-- ==== Sys2Proof/Safety.lean ====
section
/-! DEFINITION. Safety.lean: the words that claims about this device are made of: when BAR0 may write a page, which pages a
command leaves alone, and the invariants that every step keeps. A safe run is one in which every step answers a next state;
this model answers nothing else (notes/assumptions/2.md). -/

namespace Sys2Proof.Machine

/-- BAR0 may write registers of page `pg`: no save is in progress (R477), the stages are done or the page is GLB or CFG
(R432), and the page is not locked (R457). -/
def Bar0 (s : State) (pg : Nat) : Prop :=
  s.pwr.saving = false ∧ (s.glb.ready = true ∨ pg = 0 ∨ pg = 5) ∧ locked s pg = false

/-- Every page header outside a list of pages is as before. -/
def PagesBut (l : List Nat) (s t : State) : Prop := ∀ pg, pg ∉ l → hdrAt t pg = hdrAt s pg

/-- Every cluster but one is as before. -/
def ClustersBut (c : Nat) (s t : State) : Prop := ∀ d, d ≠ c → clusterAt t d = clusterAt s d

/-- Every instance but one is as before. -/
def InstsBut (h : Nat) (s t : State) : Prop := ∀ i, i ≠ h → instAt t i = instAt s i

/-- The hedge is in the middle of a tick that can still commit: RUNNING, not yet committed, not discarded (R50). -/
def Working (i : Inst) : Prop := i.st = .running ∧ i.committed = false ∧ discarded i = false

/-- The tick unit's fields in effect stay legal: the period within R27, SRC never 0b11 and SLEW_NS at most 1,000 (R43). -/
def TickInv (s : State) : Prop :=
  50 ≤ s.tck.period ∧ s.tck.period ≤ 100000 ∧ s.tck.src ≠ 3 ∧ s.tck.slew ≤ 1000

/-- The two byte memories of the device, HBM with the slices and the flash, are in canonical form. -/
def MemInv (s : State) : Prop := Memory.wf s.mem = true ∧ Memory.wf s.glb.flash = true

/-- Commands that may move the device tick counter: the boundary (R46), and those that reset the device (R430) or start it
(R448). -/
def movesDevTick : Instr → Bool
  | .tickBoundary _ => true
  | .deviceReset _ => true
  | .moduleStart => true
  | .startupStageDone _ => true
  | _ => false

/-! ### What one issue of a sprig does (R159–R165) -/

/-- A sprig of a cluster. -/
def sprigOf (s : State) (c p : Nat) : Sprig := sprigAt (clusterAt s c) p

/-- The context from which a sprig issues. -/
def activeCtx (s : State) (c p : Nat) : Ctx := ctxAt (sprigOf s c p) (sprigOf s c p).active

/-- The WORK cycle in which an instruction with sources `rs` issues: the sprig's next cycle, its sources ready and, for a
division or a square root, the divide unit free (R162, R163). -/
def issueCycle (s : State) (c p : Nat) (rs : List Nat) (div : Bool) : Nat :=
  Nat.max (sprigOf s c p).cycle
    (Nat.max (readyAt (activeCtx s c p) rs) (if div then (sprigOf s c p).divFree else 0))

/-- The word `w` is what the sprig issues next, and its issue falls into the laying slot in progress (R162, R179). -/
def Issues (s : State) (c p : Nat) (w : Word) (rs : List Nat) (div : Bool) : Prop :=
  issues s c p w = true ∧
  (laying (clusterAt s c) = true → issueCycle s c p rs div < slotEnd (clusterAt s c) (sprigOf s c p).cycle)

/-- One instruction issued in WORK cycle `u` on sprig `p` of cluster `c`: nothing outside the cluster changed; the cluster
is `k` but for its sprigs, and of these only the one changed, of it no other context and no program; it can issue again from
the next cycle on, and it counts one busy cycle and the stalls before it (R162, R163). -/
def Issued (s t : State) (c p u : Nat) (k : Cluster) : Prop :=
  t = { s with clusters := t.clusters } ∧ ClustersBut c s t ∧ clusterAt t c = { k with sprigs := (clusterAt t c).sprigs } ∧
  (∀ q, q ≠ p → sprigOf t c q = sprigOf s c q) ∧
  (∀ b, b ≠ (sprigOf s c p).active → ctxAt (sprigOf t c p) b = ctxAt (sprigOf s c p) b) ∧
  (sprigOf t c p).active = (sprigOf s c p).active ∧ (sprigOf t c p).imem = (sprigOf s c p).imem ∧
  (sprigOf t c p).prog = (sprigOf s c p).prog ∧ (sprigOf t c p).cycle = u + 1 ∧
  (sprigOf t c p).cnt.busy = (sprigOf s c p).cnt.busy + 1 ∧
  (sprigOf t c p).cnt.dep = (sprigOf s c p).cnt.dep + (u - (sprigOf s c p).cycle)

/-- A sprig's data memory and class B generator are as before. -/
def SprigStores (s t : State) (c p : Nat) : Prop :=
  (sprigOf t c p).dmem = (sprigOf s c p).dmem ∧ (sprigOf t c p).lfsr = (sprigOf s c p).lfsr

/-- Of a context, only the program counter and the loop levels may have changed. -/
def CtxKept (x y : Ctx) : Prop := y = { x with pc := y.pc, loop0 := y.loop0, loop1 := y.loop1 }

/-- Of a context, register `rd` reads `v` and can be a source from cycle `ready` on, unless it is g0 (R159, R163); every
other register, the predicates and the queues are as before. -/
def RegPut (x y : Ctx) (rd : Nat) (v : Word) (ready : Nat) : Prop :=
  y = { x with pc := y.pc, loop0 := y.loop0, loop1 := y.loop1, regs := y.regs, rdy := y.rdy } ∧
  (∀ r, getReg y r = if r = rd ∧ r ≠ 0 then v else getReg x r) ∧
  (∀ r, mget y.rdy 0 r = if r = rd ∧ r ≠ 0 then ready else mget x.rdy 0 r)

/-- Of a context, predicate `pd` mod 8 reads `v`, unless it is p0 (R159); everything else is as before. -/
def PredPut (x y : Ctx) (pd : Nat) (v : Bool) : Prop :=
  y = { x with pc := y.pc, loop0 := y.loop0, loop1 := y.loop1, preds := y.preds } ∧
  (∀ n, n < 8 → getPred y n = if n = pd % 8 ∧ n ≠ 0 then v else getPred x n)

/-- The command issues word `w` and writes register `rd` with `v`, ready `lat` cycles after its issue. -/
def RegResult (i : Instr) (s : State) (c p : Nat) (w : Word) (rs : List Nat) (rd lat : Nat) (v : Word) : Prop :=
  Issues s c p w rs false →
  ∃ t : State, exec i s = .next t ∧ Issued s t c p (issueCycle s c p rs false) (clusterAt s c) ∧ SprigStores s t c p ∧
    RegPut (activeCtx s c p) (activeCtx t c p) rd v (issueCycle s c p rs false + lat)

/-- The command issues word `w` and writes a register and the flags of SPG_FLAGS (R167); `div` occupies the divide unit. -/
def FpResult (i : Instr) (s : State) (c p : Nat) (w : Word) (rs : List Nat) (div : Bool) (rd lat : Nat)
    (v : Word × BitVec 4) : Prop :=
  Issues s c p w rs div →
  ∃ t : State, exec i s = .next t ∧
    Issued s t c p (issueCycle s c p rs div) { clusterAt s c with spgFlags := (clusterAt s c).spgFlags ||| v.2 } ∧
    SprigStores s t c p ∧
    (sprigOf t c p).divFree = (if div then issueCycle s c p rs div + 8 else (sprigOf s c p).divFree) ∧
    RegPut (activeCtx s c p) (activeCtx t c p) rd v.1 (issueCycle s c p rs div + lat)

/-- The command issues word `w` and writes a predicate, and the flags of an FP comparison. -/
def PredResult (i : Instr) (s : State) (c p : Nat) (w : Word) (rs : List Nat) (pd : Nat) (v : Bool × BitVec 4) : Prop :=
  Issues s c p w rs false →
  ∃ t : State, exec i s = .next t ∧
    Issued s t c p (issueCycle s c p rs false) { clusterAt s c with spgFlags := (clusterAt s c).spgFlags ||| v.2 } ∧
    SprigStores s t c p ∧ PredPut (activeCtx s c p) (activeCtx t c p) pd v.1

/-- Of a context, only the program counter, the loop levels and the cycle from which `rd` can be a source may have changed: that
cycle is what it would be had the instruction written `rd`, for waits depend on the instructions alone (R163). -/
def RegHeld (x y : Ctx) (rd ready : Nat) : Prop :=
  y = { x with pc := y.pc, loop0 := y.loop0, loop1 := y.loop1, rdy := y.rdy } ∧
  (∀ r, mget y.rdy 0 r = if r = rd ∧ r ≠ 0 then ready else mget x.rdy 0 r)

/-- The command issues word `w` and changes no register, predicate or memory (R165). `hold` names the register that it would have
written and the latency, for which a reader still waits (R163). -/
def OffResult (i : Instr) (s : State) (c p : Nat) (w : Word) (rs : List Nat) (div : Bool) (hold : Option (Nat × Nat)) : Prop :=
  Issues s c p w rs div →
  ∃ t : State, exec i s = .next t ∧ Issued s t c p (issueCycle s c p rs div) (clusterAt s c) ∧ SprigStores s t c p ∧
    (match hold with
      | none => CtxKept (activeCtx s c p) (activeCtx t c p)
      | some (rd, lat) => RegHeld (activeCtx s c p) (activeCtx t c p) rd (issueCycle s c p rs div + lat))

/-- Sprig `p` of cluster `c` accesses the store at `a` in cycle `u` of state `s`: no other sprig comes first, and neither the matrix
engine nor another access takes the bank (R175). -/
def StoreTurn (s : State) (c p u a : Nat) : Prop :=
  isTurn (clusterAt s c) p u = true ∧ meBusy (clusterAt s c) u (bankOf a) = false ∧
  mget (clusterAt s c).banks 0 (u * 16 + bankOf a) = 0

/-- The cluster after such an access: the bank is taken in that cycle, and nothing else of it changed. -/
def BankTaken (k k' : Cluster) (u a : Nat) : Prop :=
  k' = { k with banks := k'.banks, sprigs := k'.sprigs, landing := k'.landing } ∧
  (∀ j, mget k'.banks 0 j = if j = u * 16 + bankOf a then 1 else mget k.banks 0 j)

/-- `bs` stands at address `a` of the memory `n`, and elsewhere `n` is as `m`. -/
def Stored (m n : Bytes) (a : Nat) (bs : List Byte) : Prop :=
  ∀ k, byteAt n k = if a ≤ k ∧ k < a + bs.length then bs.getD (k - a) 0 else byteAt m k

end Sys2Proof.Machine
end

