-- ==== Sys2Proof/Certificates/Slice0/Obligations.lean ====
section
/-! DEFINITION. Certificates/Slice0/Obligations.lean: what the provers are to prove of the model: statements from the numbered
rules of spec/, by family of commands. Each docstring names the rules; a number in brackets is an entry of notes/assumptions. -/

open Sys2Proof Sys2Proof.Machine

/-- With command c at the front of the queue, a step is exec c on the state with the rest of the queue; with nothing waiting a step changes nothing (the model's choice, entry 3). -/
def Obligations.step_runs_the_front_command : Prop :=
  ∀ (s : State) (c : Instr) (rest : List Instr),
    (s.pending = c :: rest → step s = exec c { s with pending := rest }) ∧ (s.pending = [] → step s = .next s)

/-- After reset the tick unit has period 1,000 µs, SRC FREE, SLEW_NS 250, TICK_OUT on with DIV 0 and does not run; the margin is 16, the power cap 1,050 W over a base of 160 W; every instance is EMPTY, every calendar slot unowned, no cluster owned; SEEDMAP is 0xE4; the grade is 0 in an envelope from 0 to 3 with GUP 1,024; the temperature limits are 95, 105, 45 and 55; start-up stands in stage ROM, not ready; telemetry is on every 1,000 ticks; no memory is listed and no command waits. State.reset meets the tick unit's invariant and the canonical form of both memories. -/
def Obligations.reset_state : Prop :=
  (  State.reset.tck.period = 1000 ∧ State.reset.tck.src = 0 ∧ State.reset.tck.slew = 250 ∧ State.reset.tck.outEn = true ∧
  State.reset.tck.outDiv = 0 ∧ State.reset.tck.running = false ∧ State.reset.tck.devTick = 0 ∧
  State.reset.calCtl.margin = 16 ∧ State.reset.calCtl.pwrCap = 1050 ∧ State.reset.calCtl.pwrBase = 160 ∧
  (∀ i : Nat, (instAt State.reset i).st = .empty) ∧ (∀ c k : Nat, mget (calAt State.reset c).table 0xFF k = 0xFF) ∧
  (∀ c : Nat, ownerOf State.reset c = 0) ∧ State.reset.ent.seedMap = 0xE4 ∧
  State.reset.avsDev.grade = 0 ∧ State.reset.avsDev.genvFast = 0 ∧ State.reset.avsDev.genvSlow = 3 ∧
  State.reset.avsDev.gup = 1024 ∧ State.reset.thm.warn = 95 ∧ State.reset.thm.crit = 105 ∧
  State.reset.thm.coolWarn = 45 ∧ State.reset.thm.coolTrip = 55 ∧ State.reset.glb.stage = 0 ∧
  State.reset.glb.ready = false ∧ State.reset.tel.interval = 1000 ∧ State.reset.tel.en = true ∧
  (∀ a : Nat, byteAt State.reset.mem a = 0) ∧ State.reset.pending = []) ∧
(  TickInv State.reset ∧ MemInv State.reset)

/-- For every command and every state, exec answers a next state, never a fault or a refusal, and that state has the same commands waiting. -/
def Obligations.every_command_answers_and_keeps_the_queue : Prop :=
  ∀ (c : Instr) (s : State), ∃ t : State, exec c s = .next t ∧ t.pending = s.pending

/-- The period is 1,000 µs after reset (R27). If it is between 50 and 100,000 µs, SRC is not the reserved 0b11 and SLEW_NS is at most 1,000 (R27, R30, R43), then so it is after every step, whatever was written. -/
def Obligations.tick_unit_stays_legal : Prop :=
  State.reset.tck.period = 1000 ∧ ∀ s t : State, TickInv s → step s = .next t → TickInv t

/-- If the listed bytes of device memory and of flash have strictly rising addresses and none is 0, then so they are after every step: equal memories stay equal data. -/
def Obligations.memories_stay_canonical : Prop :=
  ∀ s t : State, MemInv s → step s = .next t → MemInv t

/-- The device tick counter is as before after every command other than TICK_BOUNDARY (R46), DEVICE_RESET (R430), MODULE_START (R402) and STARTUP_STAGE_DONE, whose restore sets it (R448). -/
def Obligations.device_tick_moves_only_at_boundaries : Prop :=
  ∀ (c : Instr) (s t : State), movesDevTick c = false → exec c s = .next t → t.tck.devTick = s.tck.devTick

/-- While the tick unit runs and the module is on, a boundary that is due (COMMIT runs, or START or STEP set an index) answers a state in OPEN whose device tick counter is the index set, or else one more than before (R28, R37, R40, R46); no index and no step is left waiting, and no period, TCK_CFG, TCK_T0 or TCK_INOFS is left staged (R30, R43). While the tick unit runs and the module is on: WORK_START in OPEN enters WORK: each cluster's counts, landings and bank times start over while its owner, store and carried area stay, an instance that does not run is as before, and memory, rings, transfers, calendars and meshes are as before (R29); COPPICE_START in WORK enters COPPICE, whose length changes by the phase error's correction, at most SLEW_NS either way (R39), SLEWING saying whether it does; COMMIT_START in COPPICE enters COMMIT and ends the correction: SLEWING clears, and the groups of stitch wires that waited for the window take their spares (R39, R127). In any other phase each of the three changes nothing (R28). -/
def Obligations.boundaries_and_phases : Prop :=
  (  ∀ (s : State) (b : BoundaryIn), s.tck.running = true → s.pwr.on = true →
    (s.tck.phase = .commit ∨ s.tck.nextIndex.isSome = true) →
    ∃ t : State, exec (.tickBoundary b) s = .next t ∧ t.tck.phase = .openP ∧
      t.tck.devTick = s.tck.nextIndex.getD (s.tck.devTick + 1) ∧
      t.tck.nextIndex = none ∧ t.tck.stepPending = false ∧ t.tck.periodStaged = none ∧ t.tck.cfgStaged = none ∧
      t.tck.t0Staged = none ∧ t.tck.inofsStaged = none) ∧
(  (∀ s : State, ticking s = true → s.tck.phase = .openP →
    ∃ t : State, exec .workStart s = .next t ∧
      t = { s with
        tck := { s.tck with phase := .work }, epoch := s.epoch + 1, fabric := endLaneRepairs s.fabric
        clusters := t.clusters, insts := t.insts, fresh := t.fresh, out := t.out, errs := t.errs, pgs := t.pgs } ∧
      (∀ h : Nat, h ∉ runningIds s → instAt t h = instAt s h) ∧
      ∀ c, (clusterAt t c).owner = (clusterAt s c).owner ∧ (clusterAt t c).carried = (clusterAt s c).carried ∧
        (clusterAt t c).store = (clusterAt s c).store ∧ (clusterAt t c).landing = [] ∧ (clusterAt t c).banks = [] ∧
        (clusterAt t c).flits = [] ∧ (clusterAt t c).tagPeak = 0 ∧ (clusterAt t c).issued = 0) ∧
  (∀ s : State, ticking s = true → s.tck.phase = .work →
    ∃ t : State, exec .coppiceStart s = .next t ∧
      t.tck.coppiceAdj = max (-(s.tck.slew : Int)) (min (s.tck.slew : Int) (-s.tck.phErr)) ∧
      t.tck = { s.tck with
        phase := .coppice, coppiceAdj := t.tck.coppiceAdj, slewing := decide (t.tck.coppiceAdj ≠ 0) } ∧
      t.cals = s.cals ∧ t.rings = s.rings ∧ t.xfers = s.xfers) ∧
  (∀ s : State, ticking s = true → s.tck.phase = .coppice →
    ∃ t : State, exec .commitStart s = .next t ∧
      t = { s with
        tck := { s.tck with
          phase := .commit, slewing := false
          phErr := if s.tck.src = 2 then s.tck.phErr + s.tck.coppiceAdj else s.tck.phErr }
        fabric := t.fabric, glb := t.glb, tel := t.tel, pgs := t.pgs } ∧
      t.tel = { s.tel with used := s.tel.used + b2n s.tel.pending } ∧ t.fabric.stitchPend = [] ∧
      (∀ p, p ∈ s.fabric.stitchPend → mget t.fabric.stitch false p.1 = true) ∧
      (∀ k : Nat, (∀ p, p ∈ s.fabric.stitchPend → p.1 ≠ k) →
        mget t.fabric.stitch false k = mget s.fabric.stitch false k) ∧
      (s.fabric.stitchPend = [] → PagesBut [pgTck, 7] s t ∧ t.fabric = s.fabric ∧ t.glb = s.glb)) ∧
  (∀ s : State, (s.tck.phase ≠ .openP → exec .workStart s = .next s) ∧ (s.tck.phase ≠ .work → exec .coppiceStart s = .next s) ∧
    (s.tck.phase ≠ .coppice → exec .commitStart s = .next s)))

/-- Where BAR0 may write the TCK page, TCK_PERIOD_WRITE, TCK_CFG_WRITE and TCK_INOFS_WRITE stage the defined bits of what was written (R30, R43); a write of TCK_T0's low half is held, and one of its high half stages the joined value and frees the half held (R462). Nothing else of the tick unit changes, and outside it only the page counters of the TCK page and of the serving link. The operation the boundary applies to a staged period: it is applied exactly when no hedge is RUNNING and it lies between 50 and 100,000 µs; refused, the period in effect is kept and PG_ERR bit 0 (a hedge runs) or bit 2 (out of range) is set on the TCK page. To a staged TCK_CFG: refused whole with PG_ERR bit 2 when SRC is 0b11 or SLEW_NS is above 1,000; applied otherwise, and LOCKED is cleared when SRC changes. -/
def Obligations.tick_registers_wait_for_the_boundary : Prop :=
  (  ∀ (s : State) (v : Word), Bar0 s pgTck →
    (∃ t : State, exec (.tckPeriodWrite v) s = .next t ∧ PagesBut [pgTck, pgLink s] s t ∧
      t = { s with tck := { s.tck with periodStaged := some (v.toNat % 2 ^ 17) }, pgs := t.pgs }) ∧
    (∃ t : State, exec (.tckCfgWrite v) s = .next t ∧ PagesBut [pgTck, pgLink s] s t ∧
      t = { s with tck := { s.tck with cfgStaged := some (v &&& 0x3FF3) }, pgs := t.pgs }) ∧
    (∃ t : State, exec (.tckInofsWrite v) s = .next t ∧ PagesBut [pgTck, pgLink s] s t ∧
      t = { s with tck := { s.tck with inofsStaged := some v }, pgs := t.pgs }) ∧
    (∃ t : State, exec (.tckT0Write false v) s = .next t ∧ PagesBut [pgTck, pgLink s] s t ∧
      mget t.loHeld none (fnKey 0 0x1058) = some v ∧ t = { s with loHeld := t.loHeld, pgs := t.pgs }) ∧
    (∃ t : State, exec (.tckT0Write true v) s = .next t ∧ PagesBut [pgTck, pgLink s] s t ∧
      mget t.loHeld none (fnKey 0 0x1058) = none ∧
      t.tck = { s.tck with
        t0Staged := some (v ++ (mget s.loHeld none (fnKey 0 0x1058)).getD ((t0Reads s.tck).setWidth 32)) } ∧
      t = { s with tck := t.tck, loHeld := t.loHeld, pgs := t.pgs })) ∧
(  (∀ (s : State) (runB : Bool) (p : Nat), s.tck.periodStaged = some p →
    (decidePeriod runB s).tck.periodStaged = none ∧
    (decidePeriod runB s).tck.period = (if runB = false ∧ 50 ≤ p ∧ p ≤ 100000 then p else s.tck.period) ∧
    (runB = true → (hdrAt (decidePeriod runB s) pgTck).err.getLsbD 0 = true) ∧
    (p < 50 ∨ 100000 < p → (hdrAt (decidePeriod runB s) pgTck).err.getLsbD 2 = true)) ∧
  (∀ (s : State) (w : Word), s.tck.cfgStaged = some w →
    (decideCfg s).tck.cfgStaged = none ∧
    (w.extractLsb' 0 2 = 3 ∨ 1000 < (w.extractLsb' 4 10).toNat →
      (decideCfg s).tck = { s.tck with cfgStaged := none } ∧ (hdrAt (decideCfg s) pgTck).err.getLsbD 2 = true) ∧
    (w.extractLsb' 0 2 ≠ 3 → (w.extractLsb' 4 10).toNat ≤ 1000 →
      (decideCfg s).tck.src = w.extractLsb' 0 2 ∧ (decideCfg s).tck.slew = (w.extractLsb' 4 10).toNat ∧
      (decideCfg s).tck.locked = (s.tck.locked && decide (w.extractLsb' 0 2 = s.tck.src)))))

/-- Where BAR0 may write the TCK page: START of a unit that does not run starts it, and the first boundary takes the grid index in PTP mode (R37) or the counter as it stands (the model's reading of R445, entry 14); a unit that runs is unchanged. STEP is ignored with PG_ERR bit 1 while a hedge is RUNNING; otherwise, in PTP mode with the unit running, the next boundary takes the grid index (R40). Only tck and page headers change. For a period of at least 1 µs the point of the index is the first one after the PTP time: it lies after that time, and the point before it, if there is one, does not (R37). A step moves every hedge tick counter of an instance that is not EMPTY by what the device tick counter moves (R40, the amount is the model's reading, entry 14). -/
def Obligations.start_and_step : Prop :=
  (  ∀ (s : State) (ns : Nat), Bar0 s pgTck →
    (∃ t : State, exec (.start ns) s = .next t ∧ PagesBut [pgTck, pgLink s] s t ∧ t = { s with tck := t.tck, pgs := t.pgs } ∧
      (s.tck.running = true → t.tck = s.tck) ∧
      (s.tck.running = false → t.tck = { s.tck with
        running := true,
        nextIndex := some (if s.tck.src = 1 then BitVec.ofNat 64 (gridIndex s.tck ns) else s.tck.devTick) })) ∧
    (∃ t : State, exec (.step ns) s = .next t ∧ PagesBut [pgTck, pgLink s] s t ∧ t = { s with tck := t.tck, pgs := t.pgs } ∧
      (anyRunning s = true → t.tck = s.tck ∧ (hdrAt t pgTck).err.getLsbD 1 = true) ∧
      (anyRunning s = false → s.tck.running = true → s.tck.src = 1 → t.tck = { s.tck with
        stepPending := true, nextIndex := some (BitVec.ofNat 64 (gridIndex s.tck ns)) }))) ∧
(  (∀ (k : Tck) (ns : Nat), 1 ≤ k.period →
    ns < k.t0.toNat + gridIndex k ns * (k.period * 1000) ∧
    (gridIndex k ns ≠ 0 → k.t0.toNat + (gridIndex k ns - 1) * (k.period * 1000) ≤ ns)) ∧
  (∀ (s : State) (n : Word64) (h : Nat), s.tck.stepPending = true → s.tck.nextIndex = some n → (instAt s h).st ≠ .empty →
    (tickCount s).tck.devTick = n ∧
    instAt (tickCount s) h = { instAt s h with htick := (instAt s h).htick + (n - s.tck.devTick) }))

/-- On a field line that is OK, in TICK_IN mode: an edge at least 50 µs after the last and within ±2 µs of the predicted boundary is accepted: it ends a run of missing edges, and it gives the phase error, the offset plus TCK_INOFS with its sign turned (R35); one outside that window, or in any mode one that comes too early, changes nothing but page counters (R41, R487). A missed edge is counted in PG_CNT1 and in the run of misses; before the third it changes nothing else. A PPS_IN pulse of at least 100 ns, 500 ms after the last, puts its PTP time into TCK_PPSTS (R35), and one that is shorter or comes earlier is ignored and counted in PG_CNT0 (R487); a TRIG input's edge puts the low 32 bits of its PTP time into its TRIGTS register (R486). -/
def Obligations.input_edges : Prop :=
  (∀ (s : State) (off : Int) (gap : Nat), lineOk s 0 = true → 50000 ≤ gap → s.tck.src = 2 → -2000 ≤ off → off ≤ 2000 →
    exec (.tickInEdge off gap) s =
      .next { s with tck := { s.tck with
        missed := 0, srcLost := false, holdover := false
        phErr := if s.tck.nextIndex.isSome then 0 else -(off + s.tck.inofs.toInt) } }) ∧
  (∀ (s : State) (off : Int) (gap : Nat), lineOk s 0 = true →
    (gap < 50000 ∨ (s.tck.src = 2 ∧ s.tck.nextIndex = none ∧ (off < -2000 ∨ 2000 < off))) →
    exec (.tickInEdge off gap) s = .next (bump s pgTck 0)) ∧
  (∀ s : State, s.tck.src = 2 → s.tck.running = true → s.tck.missed ≠ 2 →
    ∃ t : State, exec .tickInEdgeMissed s = .next t ∧ PagesBut [pgTck] s t ∧
      t = { s with tck := { s.tck with missed := s.tck.missed + 1 }, pgs := t.pgs }) ∧
  (∀ s : State, s.tck.src = 2 → s.tck.running = true → s.tck.missed = 2 →
    ∃ t : State, exec .tickInEdgeMissed s = .next t ∧ t.tck.locked = false ∧ t.tck.holdover = true ∧ t.tck.srcLost = true) ∧
  (∀ (s : State) (p : Word64) (gap w : Nat), lineOk s 1 = true → 500000000 ≤ gap → 100 ≤ w →
    ∃ t : State, exec (.ppsInEdge p gap w) s = .next t ∧ PagesBut [pgTck] s t ∧
      t = { s with tck := { s.tck with pps := p }, pgs := t.pgs }) ∧
  (∀ (s : State) (p : Word64) (gap w : Nat), lineOk s 1 = true → (gap < 500000000 ∨ w < 100) →
    exec (.ppsInEdge p gap w) s = .next (bump s pgTck 0)) ∧
  (∀ (s : State) (n : Fin 4) (p : Word64), trigIsInput s n = true → lineOk s (2 + n.val) = true →
    ∃ t : State, exec (.trigInputEdge n p) s = .next t ∧ PagesBut [2] s t ∧
      mget t.pwr.trigTs 0 n.val = p.setWidth 32 ∧ (∀ m, m ≠ n.val → mget t.pwr.trigTs 0 m = mget s.pwr.trigTs 0 m) ∧
      t = { s with pwr := { s.pwr with trigTs := t.pwr.trigTs }, pgs := t.pgs })

/-- Sixteen good ticks set LOCKED (R38). Losing a source that is not FREE sets HOLDOVER and clears LOCKED (R42, code 0x5001 logged); its return ends holdover and gives the phase error that COPPICE corrects (R39, R42). When a follower has gone 1,000 ticks without the master, each hedge that runs on its die is marked to go HELD at the boundary (R44), its fields otherwise kept, and code 0x5006 is logged. -/
def Obligations.lock_and_followers : Prop :=
  (∀ s : State, s.tck.running = true → 16 ≤ s.tck.goodTicks → s.tck.srcLost = false →
    ∃ t : State, exec .lockAcquired s = .next t ∧ PagesBut [pgTck] s t ∧
      t = { s with tck := { s.tck with locked := true }, pgs := t.pgs }) ∧
  (∀ s : State, s.tck.src ≠ 0 → s.tck.srcLost = false →
    ∃ t : State, exec .lockSourceLost s = .next t ∧ PagesBut [6] s t ∧
      t.tck = { s.tck with srcLost := true, holdover := true, locked := false, goodTicks := 0 } ∧
      t = { s with tck := t.tck, fresh := s.fresh + 1, errs := t.errs, pgs := t.pgs }) ∧
  (∀ (s : State) (e : Int), s.tck.srcLost = true →
    ∃ t : State, exec (.lockSourceReturn e) s = .next t ∧ PagesBut [pgTck] s t ∧
      t = { s with tck := { s.tck with srcLost := false, holdover := false, missed := 0, phErr := e }, pgs := t.pgs }) ∧
  (∀ (s : State) (d : Die), 1000 ≤ mget s.tck.followerTicks 0 d.val →
    ∃ t : State, exec (.followerHoldoverLimit d) s = .next t ∧ PagesBut [6] s t ∧
      (∀ i, i ∈ instsOnDie s d.val → (instAt s i).st = .running →
        instAt t i = { instAt s i with holdNext := some 2 }) ∧
      t = { s with insts := t.insts, fresh := s.fresh + 1, out := t.out, errs := t.errs, pgs := t.pgs })

/-- Where BAR0 may write the page: CAL_TABLE_WRITE of word w puts its four bytes into shadow slots 4w to 4w + 3, in little-endian order, and changes no other slot, no active table and no other calendar (R76); CAL_SWAP marks the SWAP pending; MARGIN_WRITE stages the low byte (R84). Outside the calendars, or the calendar control page, only page counters change. The operation the boundary applies to a calendar whose SWAP is pending: when none of the three causes of R77 holds the active table becomes the shadow, otherwise it stays and the PG_ERR bit of each cause that holds is set; in either case no SWAP is left pending, the shadow stays, and every other calendar is as before (R76, R77). -/
def Obligations.calendar_changes_wait : Prop :=
  (  (∀ (s : State) (cal : CalId) (w : Fin 256) (v : Word), Bar0 s (pgCal cal.val) →
    ∃ t : State, exec (.calTableWrite cal w v) s = .next t ∧ PagesBut [pgCal cal.val, pgLink s] s t ∧
      (∀ b : Nat, b < 4 → mget (calAt t cal.val).shadow 0xFF (4 * w.val + b) = v.toNat / 2 ^ (8 * b) % 256) ∧
      (∀ k : Nat, k < 4 * w.val ∨ 4 * w.val + 3 < k →
        mget (calAt t cal.val).shadow 0xFF k = mget (calAt s cal.val).shadow 0xFF k) ∧
      calAt t cal.val = { calAt s cal.val with shadow := (calAt t cal.val).shadow } ∧
      (∀ c : Nat, c ≠ cal.val → calAt t c = calAt s c) ∧ t = { s with cals := t.cals, pgs := t.pgs }) ∧
  (∀ (s : State) (cal : CalId), Bar0 s (pgCal cal.val) →
    ∃ t : State, exec (.calSwap cal) s = .next t ∧ PagesBut [pgCal cal.val, pgLink s] s t ∧
      calAt t cal.val = { calAt s cal.val with pending := true } ∧
      (∀ c : Nat, c ≠ cal.val → calAt t c = calAt s c) ∧ t = { s with cals := t.cals, pgs := t.pgs }) ∧
  (∀ (s : State) (v : Word), Bar0 s 8 →
    ∃ t : State, exec (.marginWrite v) s = .next t ∧ PagesBut [8, pgLink s] s t ∧
      t = { s with calCtl := { s.calCtl with marginStaged := some (v.toNat % 256) }, pgs := t.pgs })) ∧
(  ∀ (before s : State) (c : Nat), (calAt s c).pending = true →
    let r := swapRefusals before s c
    let t := applySwap before s c
    (calAt t c).pending = false ∧ (calAt t c).shadow = (calAt s c).shadow ∧
    (calAt t c).table = (if r.1 || r.2.1 || r.2.2 then (calAt s c).table else (calAt s c).shadow) ∧
    (r.1 = true → (hdrAt t (pgCal c)).err.getLsbD 0 = true) ∧ (r.2.1 = true → (hdrAt t (pgCal c)).err.getLsbD 1 = true) ∧
    (r.2.2 = true → (hdrAt t (pgCal c)).err.getLsbD 2 = true) ∧ (∀ d : Nat, d ≠ c → calAt t d = calAt s d))

/-- The operation the boundary applies to the slot of a RUNNING hedge: after a commit the hedge tick counter grows by one, the lag stays and the count of consecutive discards is 0; after a discard the hedge tick counter stays and the lag and that count grow by one (R47, R52, R53). The hedge then goes HELD exactly when a hold was asked for or the count has reached 3 (R53), and is not committed for the next tick. A discarded tick of a hedge that a STOP or a reshape takes out of RUNNING at this boundary is kept to be run again (R99, R103). -/
def Obligations.slot_outcome : Prop :=
  ∀ (s : State) (h : Nat), (instAt s h).st = .running →
    let i := instAt s h
    let j := instAt (endSlot s h) h
    (i.committed = true → j.htick = i.htick + 1 ∧ j.lag = i.lag ∧ j.consec = 0 ∧ j.outcome = 0) ∧
    (i.committed = false → j.htick = i.htick ∧ j.lag = i.lag + 1 ∧ j.consec = i.consec + 1 ∧ j.outcome ≠ 0) ∧
    j.committed = false ∧ j.redo = (!i.committed && leavesNow s h) ∧
    j.st = (if i.holdNext.isSome ∨ 3 ≤ j.consec then .held else .running)

/-- In COMMIT, of a RUNNING hedge that has not committed and whose tick is not discarded, with no send of the last committed tick left, COMMIT_POINT commits: the hedge is marked, no line of its windows stays pending and every line that was pending has changed its selector (R51, R267). With sends left the tick diverges instead and is not committed; those sends are abandoned and counted (R317). In every other phase nothing changes. The tick unit and the device memory's calendars are as before. In COMMIT or OPEN, for a cluster of an instance whose mirror copy is outstanding, MIRROR_COPY_DONE writes the committed carried image to the mirror area and marks the copy done (R273, R275): every byte of the area reads as the image, every byte outside it as before, and no other cluster changes. -/
def Obligations.commit_and_mirror : Prop :=
  (  (∀ (s : State) (h : InstId), ticking s = true → s.tck.phase = .commit → Working (instAt s h.val) →
    sendsLeft s h.val = [] →
    ∃ t : State, exec (.commitPoint h) s = .next t ∧ (instAt t h.val).committed = true ∧ (instAt t h.val).pend = [] ∧
      (instAt t h.val).st = .running ∧ (instAt t h.val).htick = (instAt s h.val).htick ∧
      (instAt t h.val).sel = (instAt s h.val).pend.foldl (fun m p => mmod m false p.1 (!·)) (instAt s h.val).sel ∧
      t.tck = s.tck) ∧
  (∀ (s : State) (h : InstId), ticking s = true → s.tck.phase = .commit → Working (instAt s h.val) →
    sendsLeft s h.val ≠ [] →
    ∃ t : State, exec (.commitPoint h) s = .next t ∧ (instAt t h.val).committed = false ∧
      (instAt t h.val).dDiverged = true ∧
      (instAt t h.val).sendLate = (instAt s h.val).sendLate + BitVec.ofNat 32 (sendsLeft s h.val).length ∧
      sendsLeft t h.val = [] ∧ t.tck = s.tck ∧ t.mem = s.mem) ∧
  (∀ (s : State) (h : InstId), s.tck.phase ≠ .commit → exec (.commitPoint h) s = .next s)) ∧
(  ∀ (s : State) (c : Cl) (a : Nat), (clusterAt s c.val).owner ≠ 0 → (clusterAt s c.val).carried.mirror = some a →
    ((clusterAt s c.val).carried.mirrorDone = false ∨ (clusterAt s c.val).carried.recopy = true) →
    (s.tck.phase = .commit ∨ s.tck.phase = .openP) →
    let img := mirrorImage (clusterAt s c.val)
    ∃ t : State, exec (.mirrorCopyDone c) s = .next t ∧
      (∀ k : Nat, k < img.length → byteAt t.mem (a + k) = img.getD k 0) ∧
      (∀ x : Nat, x < a ∨ a + img.length ≤ x → byteAt t.mem x = byteAt s.mem x) ∧
      (clusterAt t c.val).carried = { (clusterAt s c.val).carried with mirrorDone := true, recopy := false, dirty := [] } ∧
      ClustersBut c.val s t ∧ t.tck = s.tck ∧ t.insts = s.insts ∧ t.rings = s.rings ∧ t.glb = s.glb)

/-- While the tick unit runs and the module is on, CALENDAR_SLOT_START starts the calendar's next slot: slot 0 first after the boundary, then one after the other through the cycle of 1,024 (R73); it leaves the active tables, the tick unit, start-up and the fabric as they are. A slot whose time has not come in this tick does not start: one that would begin after the tick's end or in a later phase (R73). On a calendar other than egress a slot carries nothing, and nothing else changes, when its owner's slots idle (R104, R380) or its link retrains (R133), or, outside the die links, when it zeroes nothing, its owner has no transfer ready and nobody may borrow it (R74, R79). -/
def Obligations.calendar_slot : Prop :=
  (∀ (s : State) (cal : CalId), ticking s = true → slotDue s cal.val (calAt s cal.val).begun = true →
    ∃ t : State, exec (.calendarSlotStart cal) s = .next t ∧ (calAt t cal.val).slotIdx = (calAt s cal.val).begun % 1024 ∧
      (calAt t cal.val).begun = (calAt s cal.val).begun + 1 ∧
      (calAt t cal.val).table = (calAt s cal.val).table ∧ t.tck = s.tck ∧ t.glb = s.glb ∧ t.fabric = s.fabric) ∧
  (∀ (s : State) (cal : CalId), ticking s = true → slotDue s cal.val (calAt s cal.val).begun = false →
    exec (.calendarSlotStart cal) s = .next s) ∧
  (∀ (s : State) (cal : CalId), ticking s = true → slotDue s cal.val (calAt s cal.val).begun = true → calClass cal.val ≠ 4 →
    let m := (calAt s cal.val).begun
    let o := slotOwner s cal.val m
    (ownerIdles s o = true ∨ linkIdle s cal.val = true ∨ (calClass cal.val = 3 ∧ s.tck.phase ≠ .work) ∨
      (calClass cal.val ≠ 3 ∧ slotZeroes s cal.val o = false ∧ slotUser s cal.val m = none)) →
    exec (.calendarSlotStart cal) s =
      .next (modCal s cal.val fun k => { k with slotIdx := m % 1024, begun := m + 1, used := 0 }))

/-- In COPPICE, with no migration on the stack, a patrol step of at most 6,400 lines moves the stack's position on by those lines, as far as the walk goes and short of what a takeover copies, or to the start with one more pass at the walk's end (R55, R280, R383), and TCK_BGSTS shows whether work is left on the stack. In COPPICE, while the stack may retire one more pseudo-channel, a migration step starts the oldest marked one when none migrates, and moves it on by the granules copied, to at most 21,457 × 128, when the read switch falls due (R283, R284); the redirect locations of the granules copied then read as memory does, the others as before. In COMMIT or OPEN a read switch that is due retires the channel, and its addresses read as the redirect locations did, every other address as before (R59, R283). In COPPICE a telemetry job with work that finishes publishes its snapshot (R476). -/
def Obligations.background_jobs : Prop :=
  (∀ (s : State) (d : Die) (n : Nat) (errs : List (UeLoc × Bool)), s.tck.phase = .coppice →
    (stackAt s d.val).migrating = none → n ≤ 6400 →
    let pos := (stackAt s d.val).scrubPos
    let upto := patrolUpto s d.val pos (min (pos + n) patrolTotal)
    ∃ t : State, exec (.patrolScrubStep d n errs) s = .next t ∧
      (stackAt t d.val).scrubPos = (if upto = patrolTotal then 0 else upto) ∧
      (stackAt t d.val).scrubPass = (stackAt s d.val).scrubPass + (if upto = patrolTotal then 1 else 0) ∧
      (∀ b : Nat, b < 8 → t.tck.bgScrub.getLsbD b = (if b = d.val then decide (upto ≠ patrolTotal) else s.tck.bgScrub.getLsbD b)) ∧
      t.tck = { s.tck with bgScrub := t.tck.bgScrub } ∧ t.mem = s.mem ∧
      (errs = [] → t = { s with hbm := t.hbm, tck := t.tck, pgs := t.pgs } ∧ PagesBut [pgDie d.val 2] s t)) ∧
  (∀ (s : State) (d : Die) (n p : Nat) (k : Stack), s.tck.phase = .coppice → mayRetire s (stackAt s d.val) = true →
    ((stackAt s d.val).migrating = some p ∧ k = stackAt s d.val ∨
      (stackAt s d.val).migrating = none ∧ (∃ rest, (stackAt s d.val).marked = p :: rest ∧
        k = { stackAt s d.val with
          migrating := some p, marked := rest, migPc := p, migPos := 0, redirect := [], redirectBad := [] })) →
    k.switchDue = false →
    ∃ t : State, exec (.pcMigrationStep d n) s = .next t ∧ PagesBut [pgDie d.val 2] s t ∧
      stackAt t d.val = { k with
        migPos := min (k.migPos + n) (21457 * 128), switchDue := decide (21457 * 128 ≤ k.migPos + n)
        redirect := (stackAt t d.val).redirect, redirectBad := (stackAt t d.val).redirectBad } ∧
      (Memory.wf s.mem = true → Memory.wf k.redirect = true → ∀ a : Nat, byteAt (stackAt t d.val).redirect a =
        if migrates k d.val a = true ∧ k.migPos ≤ granuleOf a ∧ granuleOf a < min (k.migPos + n) (21457 * 128)
        then byteAt s.mem a else byteAt k.redirect a) ∧
      t = { s with hbm := t.hbm, pgs := t.pgs }) ∧
  (∀ (s : State) (d : Die) (p : Nat), (stackAt s d.val).migrating = some p → (stackAt s d.val).switchDue = true →
    (s.tck.phase = .commit ∨ s.tck.phase = .openP) → mayRetire s (stackAt s d.val) = true →
    ∃ t : State, exec (.pcReadSwitch d) s = .next t ∧ PagesBut [6, pgDie d.val 2] s t ∧
      stackAt t d.val = { stackAt s d.val with
        migrating := none, switchDue := false, redirect := [], redirectBad := []
        retMap := (stackAt s d.val).retMap ||| (1 <<< p) } ∧
      (Memory.wf s.mem = true → Memory.wf (stackAt s d.val).redirect = true →
        (∀ a : Nat, migrates (stackAt s d.val) d.val a = false → byteAt (stackAt s d.val).redirect a = 0) →
        ∀ a : Nat, byteAt t.mem a = if migrates (stackAt s d.val) d.val a = true then byteAt (stackAt s d.val).redirect a
          else byteAt s.mem a) ∧
      t = { s with
        mem := t.mem, poison := t.poison, hbm := t.hbm, glb := t.glb, fresh := s.fresh + 1, errs := t.errs, pgs := t.pgs }) ∧
  (∀ (s : State) (x : TelIn) (fin : Bool), s.tck.phase = .coppice → (s.tel.pending || telNew s) = true →
    ∃ t : State, exec (.telemetrySnapshot x fin) s = .next t ∧ t.tck = { s.tck with bgTel := !fin } ∧
      t.tel.pending = !fin ∧ (fin = true → t.tel.snapTick = (if s.tel.pending then s.tel.startTick else s.tck.devTick)) ∧
      PagesBut [7] s t ∧ t = { s with tck := t.tck, tel := t.tel, insts := t.insts, pgs := t.pgs })

/-- A single-bit flit error is corrected and counted; a multi-bit error discards the tick of the cluster's hedge (R125). A flit at a closed port is counted in the HDG_WALLIN of the hedge on the inner side, which for a dormant cluster is the one it joins (R66, R104). A CRC retry is counted and takes a flit position of the slot in progress; one that fails, or finds no position, discards the hedge's tick (R130; of a spine module, where no position is short, entry 54). In OPEN a lane with more than ERRTHR errors moves to a spare, and with none left the module degrades (R131, R132). A lost module goes down and retrains, and discards the tick of every hedge that owns a slot of it; retraining brings it up (R133). The first wire fault in a stitch group uses the spare, in OPEN and COMMIT at once and else when that window comes; a second one marks the hedges of the die to go HELD (R127). -/
def Obligations.fabric_faults : Prop :=
  (∀ (s : State) (c : Cl), ∃ t : State, exec (.flitEccError c false) s = .next t ∧ PagesBut [6] s t ∧ ClustersBut c.val s t ∧
      clusterAt t c.val = { clusterAt s c.val with flitCorrected := (clusterAt s c.val).flitCorrected + 1 } ∧
      t = { s with clusters := t.clusters, fresh := s.fresh + 1, errs := t.errs, pgs := t.pgs }) ∧
  (∀ (s : State) (c : Cl), Working (instAt s (ownerOf s c.val)) →
    ∃ t : State, exec (.flitEccError c true) s = .next t ∧ PagesBut [6] s t ∧
      instAt t (ownerOf s c.val) = { instAt s (ownerOf s c.val) with dFault := true } ∧ InstsBut (ownerOf s c.val) s t ∧
      t = { s with insts := t.insts, clusters := t.clusters, fresh := s.fresh + 1, errs := t.errs, pgs := t.pgs }) ∧
  (∀ (s : State) (c : Cl), wallOwner s c.val ≠ 0 →
    ∃ t : State, exec (.flitAtClosedPort c) s = .next t ∧ InstsBut (wallOwner s c.val) s t ∧
      instAt t (wallOwner s c.val) =
        { instAt s (wallOwner s c.val) with wallIn := (instAt s (wallOwner s c.val)).wallIn + 1 } ∧
      t = { s with insts := t.insts, fresh := s.fresh + 1, errs := t.errs, pgs := t.pgs }) ∧
  (∀ (s : State) (m : ModId) (dir : Fin 2) (h : InstId), (40 ≤ m.val ∨ m.val % 4 = 3) →
    exec (.dieLinkCrcFail m dir h true) s = .next (bump s (pgD2d m.val) 0)) ∧
  (∀ (s : State) (m : ModId) (dir : Fin 2) (h : InstId), m.val < 40 → m.val % 4 < 3 →
    let cal := calFirst 3 + m.val / 4 * 6 + m.val % 4 * 2 + dir.val
    64 * (calAt s cal).used < slotCapacity s cal →
    exec (.dieLinkCrcFail m dir h true) s =
      .next (modCal (bump s (pgD2d m.val) 0) cal fun k => { k with used := k.used + 1 })) ∧
  (∀ (s : State) (m : ModId) (dir : Fin 2) (h : InstId) (ok : Bool), Working (instAt s h.val) →
    let cal := calFirst 3 + m.val / 4 * 6 + m.val % 4 * 2 + dir.val
    (ok = false ∨ (m.val < 40 ∧ m.val % 4 < 3 ∧ slotCapacity s cal ≤ 64 * (calAt s cal).used)) →
    ∃ t : State, exec (.dieLinkCrcFail m dir h ok) s = .next t ∧ PagesBut [6, pgD2d m.val] s t ∧ InstsBut h.val s t ∧
      instAt t h.val = { instAt s h.val with dFault := true } ∧ (∀ c : Nat, c ≠ cal → calAt t c = calAt s c) ∧
      t = { s with
        cals := t.cals, insts := t.insts, clusters := t.clusters, fresh := s.fresh + 1, errs := t.errs, pgs := t.pgs }) ∧
  (∀ (s : State) (m : ModId) (l : Fin 64) (errs : Nat), s.tck.phase = .openP → (d2dAt s m.val).errThr < errs →
    (d2dAt s m.val).badLane.getLsbD l.val = false →
    ∃ t : State, exec (.dieLinkLaneRepair m l errs) s = .next t ∧ PagesBut [6, pgD2d m.val] s t ∧
      d2dAt t m.val = (if (d2dAt s m.val).spares < 4 then
        { d2dAt s m.val with
          badLane := (d2dAt s m.val).badLane ||| (1 <<< l.val), repairing := true, spares := (d2dAt s m.val).spares + 1 }
        else { d2dAt s m.val with
          badLane := (d2dAt s m.val).badLane ||| (1 <<< l.val), repairing := true, degraded := true }) ∧
      t = { s with fabric := t.fabric, glb := t.glb, fresh := s.fresh + 1, errs := t.errs, pgs := t.pgs }) ∧
  (∀ (s : State) (m : ModId), (d2dAt s m.val).retraining = false →
    ∃ t : State, exec (.dieLinkLoss m) s = .next t ∧ PagesBut [6, pgD2d m.val] s t ∧
      d2dAt t m.val = { d2dAt s m.val with up := false, retraining := true } ∧
      (∀ h, h ∈ moduleOwners s m.val → Working (instAt s h) → (instAt t h).dFault = true) ∧
      (∀ h, h ∉ moduleOwners s m.val → instAt t h = instAt s h)) ∧
  (∀ (s : State) (m : ModId), (d2dAt s m.val).retraining = true →
    ∃ t : State, exec (.dieLinkRetrainDone m) s = .next t ∧ PagesBut [pgD2d m.val] s t ∧
      d2dAt t m.val = { d2dAt s m.val with up := true, retraining := false } ∧
      t = { s with fabric := t.fabric, pgs := t.pgs }) ∧
  (∀ (s : State) (d : Die) (g : Fin 64),
    let key := d.val * 64 + g.val
    let second := mget s.fabric.stitch false key || mget s.fabric.stitchPend false key
    ∃ t : State, exec (.stitchWireFault d g) s = .next t ∧
      (second = false → (s.tck.phase = .openP ∨ s.tck.phase = .commit) →
        mget t.fabric.stitch false key = true ∧ t.fabric.stitchPend = s.fabric.stitchPend ∧ t.insts = s.insts) ∧
      (second = false → s.tck.phase ≠ .openP → s.tck.phase ≠ .commit →
        mget t.fabric.stitchPend false key = true ∧ t.fabric.stitch = s.fabric.stitch ∧ t.insts = s.insts) ∧
      (second = true → t.fabric = s.fabric ∧
        ∀ h, h ∈ instsOnDie s d.val → (instAt s h).st = .running → (instAt t h).holdNext.isSome = true))

/-- At a physical column of a die row with no entry set or staged, CLUSTER_FAULT stages the column and records it; the copy is already done for the spare itself (R382). In a row whose entry is set to another column the logical cluster becomes unavailable and each RUNNING hedge of the row is marked to go HELD with cause 6 (R117, R386). A takeover copy that completes before COMMIT is marked done, one that completes in COMMIT is marked late (R384). A hung unit, when its cluster's own row has no entry, stages that cluster's column (R381). -/
def Obligations.cluster_faults : Prop :=
  (∀ (s : State) (d : Die) (r : Fin 8) (p : Fin 9) (lost : List UeLoc), repEntry s d.val r.val = 15 →
    mget s.fabric.repPend 15 (d.val * 8 + r.val) = 15 →
    ∃ t : State, exec (.clusterFault d r p lost) s = .next t ∧
      mget t.fabric.repPend 15 (d.val * 8 + r.val) = p.val ∧
      mget t.fabric.copyDone false (d.val * 8 + r.val) = decide (p.val = 8) ∧ t.fabric.repMap = s.fabric.repMap ∧
      (d.val * 72 + r.val * 9 + p.val) ∈ t.glb.repairRec ∧ t.tck = s.tck ∧ t.mem = s.mem) ∧
  (∀ (s : State) (d : Die) (r : Fin 8) (p : Fin 9) (lost : List UeLoc) (c : Nat), repEntry s d.val r.val ≠ 15 →
    repEntry s d.val r.val ≠ p.val → logicalAt s d.val r.val p.val = some c →
    ∃ t : State, exec (.clusterFault d r p lost) s = .next t ∧ t.fabric = s.fabric ∧ (clusterAt t c).avail = false ∧
      (∀ h, h ∈ instsInRow s d.val r.val → (instAt s h).st = .running → (instAt t h).holdNext = some 6) ∧
      (∀ h, h ∉ instsInRow s d.val r.val → h ≠ ownerOf s c → instAt t h = instAt s h)) ∧
  (∀ (s : State) (d : Die) (r : Fin 8), mget s.fabric.repPend 15 (d.val * 8 + r.val) ≤ 7 →
    mget s.fabric.copyDone false (d.val * 8 + r.val) = false →
    ∃ t : State, exec (.takeoverCopyDone d r) s = .next t ∧ t = { s with fabric := t.fabric } ∧
      t.fabric.repPend = s.fabric.repPend ∧
      (s.tck.phase = .commit → mget t.fabric.copyLate false (d.val * 8 + r.val) = true ∧ t.fabric.copyDone = s.fabric.copyDone) ∧
      (s.tck.phase ≠ .commit → mget t.fabric.copyDone false (d.val * 8 + r.val) = true)) ∧
  (∀ (s : State) (c : Cl) (u : UnitKind), unitRuns (clusterAt s c.val) u = true →
    repEntry s (dieOf c.val) (c.val / 32 % 8) = 15 → mget s.fabric.repPend 15 (dieOf c.val * 8 + c.val / 32 % 8) = 15 →
    ∃ t : State, exec (.unitHang c u) s = .next t ∧
      mget t.fabric.repPend 15 (dieOf c.val * 8 + c.val / 32 % 8) = c.val % 8 ∧ t.tck = s.tck ∧ t.mem = s.mem)

/-- Where BAR0 may write the instance's page, a write to a word of an entry of an instance that is not RUNNING, not being zeroed there, that leaves the entry not valid, or neither refused nor malformed, takes the word's defined bits and changes no other word (R259, R264). SEGMENT_ZEROED, of the segment in progress on its stack, past step B1 and once the instance's slots have zeroed the whole of it, leaves its frames zero, returns the four words to 0 and takes it off the list (R114); memory outside the frames is as before. Where BAR0 may write the page: a flow word other than REMOTE_INCARN takes its writable bits and keeps the others; REMOTE_INCARN is staged (R312); an RXSHARE that would take the port's shares beyond the 4 MiB of R304 is not taken (the model's choice, entry 15). KEY_INSTALL with the key DRBG running and entropy not degraded puts the staged key and salt in the named slot, sets its KEY_VALID bit and takes 384 bits of class A output for the key DRBG (R243, the time of the reseed by entry 59); degraded it changes no port state (R256, R325). A channel word is staged for the boundary with its writable bits (R313). -/
def Obligations.instance_and_port_tables : Prop :=
  (  (∀ (s : State) (h : InstId) (n : Fin 64) (w : Fin 4) (v : Word), h.val ≠ 0 → Bar0 s (pgHbcI h.val) →
    n.val ∉ (instAt s h.val).zeroing → (instAt s h.val).st ≠ .running →
    (let word := fun k : Nat => if k = w.val then v &&& segMask w.val else mget (instAt s h.val).segs 0 (n.val * 4 + k)
     let g := segOfWords (word 0).toNat (word 1).toNat (word 2).toNat
     g.valid = false ∨ (segRefused s h.val g = false ∧ segMalformed (instAt s h.val) n.val g = false)) →
    ∃ t : State, exec (.segmentEntryWrite h n w v) s = .next t ∧ PagesBut [pgHbcI h.val, pgLink s] s t ∧
      mget (instAt t h.val).segs 0 (n.val * 4 + w.val) = v &&& segMask w.val ∧
      (∀ k : Nat, k ≠ n.val * 4 + w.val → mget (instAt t h.val).segs 0 k = mget (instAt s h.val).segs 0 k) ∧
      instAt t h.val = { instAt s h.val with segs := (instAt t h.val).segs } ∧ InstsBut h.val s t ∧
      t = { s with insts := t.insts, pgs := t.pgs }) ∧
  (∀ (s : State) (h : InstId) (n : Fin 64), n.val ∈ (instAt s h.val).zeroing → (instAt s h.val).resetStep ≠ 1 →
    zeroingSeg (instAt s h.val) (segView (instAt s h.val) n.val).target = some n.val →
    (segView (instAt s h.val) n.val).len * unit2M ≤ mget (instAt s h.val).zeroPos 0 (segView (instAt s h.val) n.val).target →
    let g := segView (instAt s h.val) n.val
    let a := frameBase g.target g.pbase
    ∃ t : State, exec (.segmentZeroed h n) s = .next t ∧ PagesBut [pgHbcI h.val, pgDie (stackOf a) 2] s t ∧
      (∀ x : Nat, a ≤ x → x < a + g.len * unit2M → byteAt t.mem x = 0) ∧
      (∀ x : Nat, x < a ∨ a + g.len * unit2M ≤ x → byteAt t.mem x = byteAt s.mem x) ∧
      (∀ k : Nat, k < 4 → mget (instAt t h.val).segs 0 (n.val * 4 + k) = 0) ∧ n.val ∉ (instAt t h.val).zeroing ∧
      InstsBut h.val s t ∧
      t = { s with insts := t.insts, mem := t.mem, poison := t.poison, hbm := t.hbm, pgs := t.pgs })) ∧
(  (∀ (s : State) (n : PortId) (f : Fin 64) (v : Word), Bar0 s (pgPort n.val 3) → 4194304 < sharesWith (ktpAt s n.val) f.val v →
    ∃ t : State, exec (.flowEntryWrite n f 1 v) s = .next t ∧ t = { s with pgs := t.pgs } ∧
      PagesBut [pgPort n.val 3, pgLink s] s t) ∧
  (∀ (s : State) (n : PortId) (f : Fin 64) (w : Fin 12) (v : Word), Bar0 s (pgPort n.val 3) →
    (w.val = 1 → sharesWith (ktpAt s n.val) f.val v ≤ 4194304) →
    ∃ t : State, exec (.flowEntryWrite n f w v) s = .next t ∧ t = { s with ktp := t.ktp, pgs := t.pgs } ∧
      PagesBut [pgPort n.val 3, pgLink s] s t ∧
      (w.val = 2 → (flowXAt (ktpAt t n.val) f.val).staged = some v ∧ (ktpAt t n.val).flows = (ktpAt s n.val).flows) ∧
      (w.val ≠ 2 → mget (ktpAt t n.val).flows 0 (f.val * 12 + w.val) =
        (v &&& flowMask w.val) ||| (mget (ktpAt s n.val).flows 0 (f.val * 12 + w.val) &&& ~~~(flowMask w.val))) ∧
      (∀ k : Nat, k ≠ f.val * 12 + w.val → mget (ktpAt t n.val).flows 0 k = mget (ktpAt s n.val).flows 0 k)) ∧
  (∀ (s : State) (n : PortId) (v : Word), Bar0 s (pgPort n.val 3) →
    (s.ent.degraded = false → s.ent.keyDrbg = true →
      ∃ t : State, exec (.keyInstall n v) s = .next t ∧ PagesBut [pgPort n.val 3, pgLink s, pgEnt] s t ∧
        t = { s with ktp := t.ktp, ent := { s.ent with keyBits := s.ent.keyBits + 384 }, pgs := t.pgs } ∧
        (let x := flowXAt (ktpAt t n.val) (v.extractLsb' 0 6).toNat
         (if v.getLsbD 6 then x.key1 else x.key0) =
           some (BitVec.ofNat 256 (wordsAt (ktpAt s n.val).keyData 0 8), (ktpAt s n.val).salt)) ∧
        (mget (ktpAt t n.val).flows 0 ((v.extractLsb' 0 6).toNat * 12 + 9)).getLsbD (if v.getLsbD 6 then 2 else 1) = true) ∧
    (s.ent.degraded = true → ∃ t : State, exec (.keyInstall n v) s = .next t ∧ t = { s with pgs := t.pgs })) ∧
  (∀ (s : State) (h : InstId) (ch : Fin 64) (w : Fin 8) (v : Word), h.val ≠ 0 → Bar0 s (pgKtpI h.val) →
    ∃ t : State, exec (.channelEntryWrite h ch w v) s = .next t ∧ t = { s with insts := t.insts, pgs := t.pgs } ∧
      PagesBut [pgKtpI h.val, pgLink s] s t ∧ InstsBut h.val s t ∧
      instAt t h.val = { instAt s h.val with
        chanStaged := mset (instAt s h.val).chanStaged none (ch.val * 8 + w.val) (some (v &&& chanMask w.val)) }))

/-- For a submit ring whose only accepted descriptor finishes: while the owner's hedge is RUNNING nothing leaves the device and the entry waits in the ring (R360); otherwise the entry leaves as one host write at the completion ring's tail, with the descriptor's cookie, type, status, result, the head after it and the tick stamp of R49 (R358), and the submit ring holds no descriptor. OFFSET_NS is a free value (entry 8). DESC_NOP, the next descriptor of its ring, completes with status 0 and has no other effect (R352). FENCE completes with status 0 once it is the ring's first descriptor without an entry, and lets fetching go on (R355); before that nothing happens. -/
def Obligations.completions_fence_and_nop : Prop :=
  (  ∀ (s : State) (r seq status res : Nat) (d : RingSlot), (ringAt s r).slots = [d] → d.seq = seq →
    let x := ringAt s r
    let q := ringAt s x.cq
    let e : CqEntry := {
      cookie := d.desc.extractLsb' 32 32, typ := d.desc.extractLsb' 0 8, status := BitVec.ofNat 8 status,
      sqHead := BitVec.ofNat 16 d.headAfter, sqId := BitVec.ofNat 8 r, result := BitVec.ofNat 32 res,
      devTick := s.tck.devTick, lag := stampLag s x.owner, offsetNs := Config.freeWord s.fresh, irq := d.desc.getLsbD 8 }
    (x.owner ≠ 0 → (instAt s x.owner).st = .running →
      (finishDesc s r seq status res).out = s.out ∧
      (ringAt (finishDesc s r seq status res) r).slots = [{ d with entry := some e }]) ∧
    (x.owner = 0 ∨ (instAt s x.owner).st ≠ .running →
      (∃ rest, (finishDesc s r seq status res).out =
        s.out ++ .hostWrite (q.base.toNat + 32 * q.tail) (cqBytes q.phase e) :: rest) ∧
      (ringAt (finishDesc s r seq status res) r).slots = [])) ∧
(  (∀ (s : State) (r : RingId) (d : RingSlot), nextDesc s r.val 0 = some d →
    exec (.descNop r) s = .next (finishDesc (beginDesc s r.val d.seq) r.val d.seq 0 0)) ∧
  (∀ (s : State) (r : RingId) (d : RingSlot), (ringAt s r.val).slots.find? (fun d => d.entry.isNone) = some d →
    (dType d.desc = 9 → exec (.fence r) s =
      .next (finishDesc (modRing (beginDesc s r.val d.seq) r.val fun x => { x with fenced := false }) r.val d.seq 0 0)) ∧
    (dType d.desc ≠ 9 → exec (.fence r) s = .next s)))

/-- A doorbell from the PF or the ring's owner, where BAR0 may write the page, that is legal for an enabled ring whose owner is not resetting, moves the tail of a submit ring or the head of a completion ring and no other field of any ring (R347, R348); any other is counted in PG_CNT2 and moves nothing. A doorbell of a VF on another's ring is counted as that VF's violation (R344). DESCRIPTOR_FETCH, when the ring may fetch, waits without room on its completion ring (R350); with room it accepts the descriptor in ring order (R351) and completes it BAD_DESCRIPTOR when R352 fails, REFUSED_PRIV for a management type on an instance's ring, REFUSED_STATE for an instance's type on a management ring (R353, the model's reading). The operation DESCRIPTOR_FETCH accepts with: the ring's head moves by one modulo its size, the descriptor takes the next sequence number at the end of the ring's list, a FENCE stops further fetching (R355), and every other ring, instance and calendar is as before (R349, R351). -/
def Obligations.doorbells_and_descriptors : Prop :=
  (  (∀ (s : State) (f : Fn) (r : RingId) (v : BitVec 16), (f.val = 0 ∨ (ringAt s r.val).owner = f.val) → Bar0 s (pgRng r.val) →
    (ringAt s r.val).enable = true → doorbellOk (ringAt s r.val) v.toNat = true →
    ((ringAt s r.val).owner = 0 ∨ (instAt s (ringAt s r.val).owner).st ≠ .resetting) →
    ∃ t : State, exec (.doorbell f r v) s = .next t ∧ PagesBut [pgRng r.val, pgLink s] s t ∧
      ringAt t r.val = (if (ringAt s r.val).kind then { ringAt s r.val with head := v.toNat }
        else { ringAt s r.val with tail := v.toNat }) ∧
      (∀ q : Nat, q ≠ r.val → ringAt t q = ringAt s q) ∧ t = { s with rings := t.rings, pgs := t.pgs }) ∧
  (∀ (s : State) (f : Fn) (r : RingId) (v : BitVec 16), (f.val = 0 ∨ (ringAt s r.val).owner = f.val) →
    ((ringAt s r.val).enable = false ∨ doorbellOk (ringAt s r.val) v.toNat = false) →
    ∃ t : State, exec (.doorbell f r v) s = .next t ∧ PagesBut [pgRng r.val, pgLink s] s t ∧ t = { s with pgs := t.pgs }) ∧
  (∀ (s : State) (f : Fn) (r : RingId) (v : BitVec 16), f.val ≠ 0 → (ringAt s r.val).owner ≠ f.val → s.pwr.saving = false →
    s.glb.ready = true →
    ∃ t : State, exec (.doorbell f r v) s = .next t ∧ t = { s with pci := t.pci } ∧
      mget (pciAt t (serving s)).vfViol 0 f.val = mget (pciAt s (serving s)).vfViol 0 f.val + 1) ∧
  (∀ (s : State) (r : RingId) (d : BitVec 512), canFetch s r.val = true →
    (cqHasRoom s (ringAt s r.val).cq = false →
      exec (.descriptorFetch r d) s = .next (modRing s r.val fun x => { x with cqWait := true })) ∧
    (cqHasRoom s (ringAt s r.val).cq = true →
      ∃ t : State, exec (.descriptorFetch r d) s = .next t ∧
        (descOk d = false → t = finishDesc (acceptDesc s r.val d) r.val (ringAt s r.val).nextSeq 0x03 0) ∧
        (descOk d = true → mgmtType (dType d) = true → (ringAt s r.val).owner ≠ 0 →
          t = finishDesc (acceptDesc s r.val d) r.val (ringAt s r.val).nextSeq 0x0C 0) ∧
        (descOk d = true → (ringAt s r.val).owner = 0 → dType d ∈ [1, 2, 3, 6, 7, 8] →
          t = finishDesc (acceptDesc s r.val d) r.val (ringAt s r.val).nextSeq 0x01 0) ∧
        (descOk d = true → mgmtType (dType d) = true → (ringAt s r.val).owner = 0 → t = acceptDesc s r.val d) ∧
        (descOk d = true → mgmtType (dType d) = false → (ringAt s r.val).owner ≠ 0 → t = acceptDesc s r.val d)))) ∧
(  ∀ (s : State) (r : Nat) (d : BitVec 512),
    let x := ringAt s r
    let t := acceptDesc s r d
    (ringAt t r).head = (x.head + 1) % ringSize x ∧ (ringAt t r).nextSeq = x.nextSeq + 1 ∧
    (∃ n : RingSlot, n.seq = x.nextSeq ∧ n.desc = d ∧ n.begun = false ∧ n.entry = none ∧
      (ringAt t r).slots = x.slots ++ [n]) ∧
    (descOk d = true → dType d = 9 → (ringAt t r).fenced = true) ∧ (ringAt t r).tail = x.tail ∧
    (∀ q : Nat, q ≠ r → ringAt t q = ringAt s q) ∧ t = { s with rings := t.rings, pgs := t.pgs } ∧
    PagesBut [pgRng r] s t)

/-- When the ring's next descriptor has the type, is not refused and a tag of its owner is free, one transfer with the descriptor's addresses and length is appended, waits on the calendar its first move takes (DRAW_ENTROPY on the supervisor's, as management traffic, R490), and takes one tag (R351, R354, R356, R357, R363). A DMA that R354 refuses completes ACCESS and starts nothing; DRAW_ENTROPY completes NO_ENTROPY while the device is DEGRADED (R256); TRACE_READ with nothing to copy completes at once (R357). Only rings, transfers, tags and calendars change on a start. TRANSFER_DONE, of a descriptor's transfer whose bytes have all moved, and HOST_COMPLETION_TIMEOUT, of a DMA_IN with host reads left (R340), take the transfer away; what a DMA_IN moved waits for the next OPEN while its hedge is RUNNING (R32) and is otherwise in memory, but one into a window whose hedge has come to run is refused and writes nothing (R269). After a reset of the instance the timeout only frees the tag (R112). A transfer with bytes left, or one that is no descriptor's, is not done. -/
def Obligations.host_transfers : Prop :=
  (  (∀ (s : State) (r : RingId) (d : RingSlot) (data : List Byte), nextDesc s r.val 4 = some d →
    let id := (ringAt s r.val).owner
    let len := dField d.desc 24 4
    (dmaRefused s id true (dField d.desc 8 8) (dField d.desc 16 8) len = true →
      exec (.dmaIn r data) s =
        .next (bump (finishDesc (beginDesc s r.val d.seq) r.val d.seq 0x04 0) (pgHbcI id) 0)) ∧
    (dmaRefused s id true (dField d.desc 8 8) (dField d.desc 16 8) len = false → tagFree s id = true → data.length = len →
      ∃ t : State, exec (.dmaIn r data) s = .next t ∧
        t = { s with rings := t.rings, xfers := t.xfers, nextXfer := s.nextXfer + 1, pci := t.pci, cals := t.cals } ∧
        (∃ x : Transfer, t.xfers = s.xfers ++ [x] ∧ x.kind = .dmaIn ∧ x.inst = id ∧ x.host = dField d.desc 8 8 ∧
          x.va = dField d.desc 16 8 ∧ x.len = len ∧ x.data = data ∧ x.moved = 0 ∧ x.ring = r.val ∧ x.seq = d.seq) ∧
        mget (pciAt t (serving s)).inUse 0 id = mget (pciAt s (serving s)).inUse 0 id + 1 ∧
        (calAt t (pcieCal s 0)).queue = (calAt s (pcieCal s 0)).queue ++
          [{ owner := id, kind := .dma s.nextXfer len, left := len, planned := false }])) ∧
  (∀ (s : State) (r : RingId) (d : RingSlot), nextDesc s r.val 5 = some d →
    let id := (ringAt s r.val).owner
    let len := dField d.desc 24 4
    (dmaRefused s id false (dField d.desc 8 8) (dField d.desc 16 8) len = true →
      exec (.dmaOut r) s = .next (bump (finishDesc (beginDesc s r.val d.seq) r.val d.seq 0x04 0) (pgHbcI id) 0)) ∧
    (dmaRefused s id false (dField d.desc 8 8) (dField d.desc 16 8) len = false → tagFree s id = true →
      ∃ t : State, exec (.dmaOut r) s = .next t ∧
        t = { s with rings := t.rings, xfers := t.xfers, nextXfer := s.nextXfer + 1, pci := t.pci, cals := t.cals } ∧
        ∃ x : Transfer, t.xfers = s.xfers ++ [x] ∧ x.kind = .dmaOut ∧ x.inst = id ∧ x.host = dField d.desc 8 8 ∧
          x.va = dField d.desc 16 8 ∧ x.len = len ∧ x.moved = 0)) ∧
  (∀ (s : State) (r : RingId) (d : RingSlot), nextDesc s r.val 6 = some d → dField d.desc 24 4 % 32 = 0 →
    dField d.desc 24 4 ≠ 0 → dField d.desc 24 4 ≤ 65536 →
    (s.ent.degraded = true →
      exec (.drawEntropy r) s = .next (finishDesc (beginDesc s r.val d.seq) r.val d.seq 0x07 0)) ∧
    (s.ent.degraded = false → tagFree s (ringAt s r.val).owner = true →
      ∃ t : State, exec (.drawEntropy r) s = .next t ∧
        t = { s with rings := t.rings, xfers := t.xfers, nextXfer := s.nextXfer + 1, pci := t.pci, cals := t.cals } ∧
        (calAt t 96).queue = (calAt s 96).queue ++
          [{ owner := 0, kind := .entropy s.nextXfer, left := dField d.desc 24 4, planned := false }] ∧
        ∃ x : Transfer, t.xfers = s.xfers ++ [x] ∧ x.kind = .entropy ∧ x.inst = (ringAt s r.val).owner ∧
          x.len = dField d.desc 24 4)) ∧
  (∀ (s : State) (r : RingId) (d : RingSlot), nextDesc s r.val 7 = some d →
    let n := min (dField d.desc 24 4) (traceCount (instAt s (ringAt s r.val).owner).ann)
    (n = 0 → exec (.traceRead r) s = .next (finishDesc (beginDesc s r.val d.seq) r.val d.seq 0 0)) ∧
    (n ≠ 0 → tagFree s (ringAt s r.val).owner = true →
      ∃ t : State, exec (.traceRead r) s = .next t ∧
        t = { s with rings := t.rings, xfers := t.xfers, nextXfer := s.nextXfer + 1, pci := t.pci, cals := t.cals } ∧
        ∃ x : Transfer, t.xfers = s.xfers ++ [x] ∧ x.kind = .trace ∧ x.len = 32 * n ∧
          (let a := (instAt s (ringAt s r.val).owner).ann
           x.va = a.trBase.toNat + 32 * a.trTail ∧ x.base = a.trBase.toNat ∧ x.wrap = 32 * 2 ^ a.trSize)))) ∧
(  (∀ (s : State) (id : Nat) (x : Transfer), s.xfers.find? (fun y => y.id == id) = some x → x.moved = x.len →
    ofDesc x = true →
    ∃ t : State, exec (.transferDone id) s = .next t ∧ t.xfers = s.xfers.filter (fun y => y.id != id) ∧ t.tck = s.tck ∧
      mget (pciAt t (serving s)).inUse 0 x.inst = mget (pciAt s (serving s)).inUse 0 x.inst - 1 ∧
      (lateWindow s x = true → t = bump (finishDesc (giveTag (dropXfer s id) x.inst) x.ring x.seq 0x04 0) (pgHbcI x.inst) 0 ∧
        t.mem = s.mem ∧ t.insts = s.insts) ∧
      (x.kind = .dmaIn → (instAt s x.inst).st = .running → lateWindow s x = false →
        (instAt t x.inst).inputs = (instAt s x.inst).inputs ++ [(x.va, x.data.take x.moved)] ∧ t.mem = s.mem) ∧
      (x.kind = .dmaOut → t.mem = s.mem ∧ t.insts = s.insts)) ∧
  (∀ (s : State) (id : Nat) (x : Transfer), s.xfers.find? (fun y => y.id == id) = some x →
    (x.moved ≠ x.len ∨ ofDesc x = false) → exec (.transferDone id) s = .next s) ∧
  (∀ (s : State) (id : Nat) (x : Transfer), s.xfers.find? (fun y => y.id == id) = some x → x.kind = .dmaIn → x.pcie < x.len →
    ∃ t : State, exec (.hostCompletionTimeout id) s = .next t ∧ t.xfers = s.xfers.filter (fun y => y.id != id) ∧
      t = bump (if x.dead then giveTag (dropXfer s x.id) x.inst else endTransfer s x 0x05) (pgPort (serving s) 1) 4))

/-- The ring's next descriptor of the type begins: when the pending state allows it, and for RUN no cluster is unavailable, for HEDGE_FORM and HEDGE_RESHAPE admission passes, exactly one staged change with the descriptor is appended and nothing else but the ring changes (R92, R94, R100); when the pending state forbids it the descriptor completes REFUSED_STATE (R94), and an admission that fails records its reason and completes with it (R86). -/
def Obligations.run_stop_form_reshape_are_staged : Prop :=
  (∀ (s : State) (r : RingId) (d : RingSlot), nextDesc s r.val 2 = some d →
    let id := (ringAt s r.val).owner
    ((afterOp (pendingState s id) .run).isNone = true → exec (.run r) s = .next (refuse s r.val d.seq 0x01 0)) ∧
    ((afterOp (pendingState s id) .run).isSome = true → hasUnavailable s (instAt s id) = false →
      ∃ t : State, exec (.run r) s = .next t ∧
        t.staged = s.staged ++ [{ inst := id, mgmt := false, op := .run, ring := r.val, seq := d.seq }] ∧
        t = { s with rings := t.rings, staged := t.staged })) ∧
  (∀ (s : State) (r : RingId) (d : RingSlot), nextDesc s r.val 3 = some d →
    let id := (ringAt s r.val).owner
    ((afterOp (pendingState s id) .stop).isNone = true → exec (.stop r) s = .next (refuse s r.val d.seq 0x01 0)) ∧
    ((afterOp (pendingState s id) .stop).isSome = true →
      ∃ t : State, exec (.stop r) s = .next t ∧
        t.staged = s.staged ++ [{ inst := id, mgmt := false, op := .stop, ring := r.val, seq := d.seq }] ∧
        t = { s with rings := t.rings, staged := t.staged })) ∧
  (∀ (s : State) (r : RingId) (d : RingSlot), nextDesc s r.val 0x40 = some d →
    let id := dField d.desc 8 1
    let q := shapeOf d.desc
    1 ≤ id → id ≤ 64 → (afterOp (pendingState s id) (.form q)).isSome = true →
    (admission s id q false = none → ∃ t : State, exec (.hedgeForm r) s = .next t ∧
      t.staged = s.staged ++ [{ inst := id, mgmt := true, op := .form q, ring := r.val, seq := d.seq }] ∧
      t = { s with rings := t.rings, staged := t.staged }) ∧
    (∀ a, admission s id q false = some a → ∃ t : State, exec (.hedgeForm r) s = .next t ∧ t.staged = s.staged ∧
      t.calCtl.reason = a.1 ∧ t = refuse (recordRefusal s a) r.val d.seq 0x02 a.1)) ∧
  (∀ (s : State) (r : RingId) (d : RingSlot), nextDesc s r.val 0x41 = some d →
    let id := dField d.desc 8 1
    let q := shapeOf d.desc
    1 ≤ id → id ≤ 64 → (afterOp (pendingState s id) (.reshape q)).isSome = true →
    (admission s id q true = none → ∃ t : State, exec (.hedgeReshape r) s = .next t ∧
      t.staged = s.staged ++ [{ inst := id, mgmt := true, op := .reshape q, ring := r.val, seq := d.seq }] ∧
      t = { s with rings := t.rings, staged := t.staged }) ∧
    (∀ a, admission s id q true = some a → ∃ t : State, exec (.hedgeReshape r) s = .next t ∧ t.staged = s.staged ∧
      t.calCtl.reason = a.1 ∧ t = refuse (recordRefusal s a) r.val d.seq 0x02 a.1))

/-- The operation the boundary applies to a staged RUN of a hedge in LOADED or HELD, whose clusters are available and whose plan has the period in effect: the hedge is RUNNING with its lag frozen, 0 the first time, and its hedge tick counter is the device tick counter minus that lag (R47, R48); when the tick in which it left RUNNING was discarded, the counter stays as it was and the lag is what that makes it (R99, R103, entry 27); other instances are as before. -/
def Obligations.running_sets_the_hedge_tick : Prop :=
  ∀ (s : State) (o : StagedOp), o.op = .run → (instAt s o.inst).st = .loaded ∨ (instAt s o.inst).st = .held →
    hasUnavailable s (instAt s o.inst) = false → (instAt s o.inst).plan.map (·.periodUs) = some s.tck.period →
    let t := applyOp s o
    (instAt t o.inst).st = .running ∧ (instAt t o.inst).consec = 0 ∧
    ((instAt s o.inst).redo = false →
      (instAt t o.inst).lag = (if (instAt s o.inst).ran then (instAt s o.inst).lag else 0)) ∧
    ((instAt s o.inst).redo = true → (s.tck.devTick - (instAt s o.inst).htick).toNat < 2 ^ 32 →
      (instAt t o.inst).htick = (instAt s o.inst).htick) ∧ (instAt t o.inst).redo = false ∧
    (instAt t o.inst).htick + (instAt t o.inst).lag.setWidth 64 = s.tck.devTick ∧ InstsBut o.inst s t

/-- PLAN_LOAD of the ring's next descriptor, in a state that allows it, with its image readable and no load in progress, is staged, and the read of its image starts: one transfer of the image's length, which waits on the calendars of the memory it reads (R19, R92, R98). PLAN_LOAD_COMPLETE of an instance FORMED or LOADED, once the whole image has been read, installs a plan whose image passes R367: the instance holds the plan with what its image states and its windows, and the load waits for the boundary; an image that fails completes REFUSED_PLAN and installs nothing. Before the whole image has been read nothing happens. -/
def Obligations.plan_load : Prop :=
  (∀ (s : State) (r : RingId) (p : Plan) (d : RingSlot), nextDesc s r.val 1 = some d →
    let id := (ringAt s r.val).owner
    (afterOp (pendingState s id) .loaded).isSome = true → imageReadable (instAt s id) (dField d.desc 8 8) (dField d.desc 16 4) = true →
    (instAt s id).loading = none →
    ∃ t : State, exec (.planLoad r p) s = .next t ∧ InstsBut id s t ∧
      (∃ l : Loaded, l.plan = p ∧ instAt t id = { instAt s id with loading := some (l, r.val, d.seq, false) }) ∧
      t.staged = s.staged ++ [{ inst := id, mgmt := false, op := .loaded, ring := r.val, seq := d.seq }] ∧
      (∃ x : Transfer, t.xfers = s.xfers ++ [x] ∧ x.kind = .image ∧ x.inst = id ∧ x.va = dField d.desc 8 8 ∧
        x.len = dField d.desc 16 4 ∧ x.moved = 0 ∧ x.data = []) ∧
      t = { s with
        insts := t.insts, rings := t.rings, staged := t.staged, xfers := t.xfers, nextXfer := s.nextXfer + 1, cals := t.cals }) ∧
  (∀ (s : State) (h : InstId) (l : Loaded) (r seq : Nat) (x : Transfer), (instAt s h.val).loading = some (l, r, seq, false) →
    imageOf s h.val = some x → x.moved = x.len → ((instAt s h.val).st = .formed ∨ (instAt s h.val).st = .loaded) →
    let bad := 67108864 < x.len ∨ planRefused s h.val l.plan x.data x.len = true
    (¬bad → ∃ t : State, exec (.planLoadComplete h) s = .next t ∧
      (instAt t h.val).plan = some (loadedOf l.plan x.data) ∧ (instAt t h.val).wins = l.plan.windows ∧
      (instAt t h.val).loading = some (loadedOf l.plan x.data, r, seq, true) ∧
      (instAt t h.val).st = (instAt s h.val).st ∧ InstsBut h.val s t ∧ t.tck = s.tck ∧ t.staged = s.staged ∧
      t.xfers = s.xfers.filter fun y => y.id != x.id) ∧
    (bad → ∃ t : State, exec (.planLoadComplete h) s = .next t ∧ t = dropLoad s h.val r seq 0x08 ∧
      (instAt t h.val).plan = (instAt s h.val).plan ∧ t.clusters = s.clusters ∧ t.mem = s.mem)) ∧
  (∀ (s : State) (h : InstId) (x : Transfer), imageOf s h.val = some x → x.moved ≠ x.len →
    exec (.planLoadComplete h) s = .next s)

/-- INSTANCE_RESET of an instance 1–64 that is not RESETTING, VF_FLR of such an instance and PF_FLR of every one put it into RESETTING at step 1 and leave every other instance's state alone (R111, R112, R345); PF_FLR also disables and empties rings 0–3 (R345). RESET_SEQUENCE_END after step B2 leaves it EMPTY with its incarnation one higher, its plan gone, and every other instance as before (R112, R113); it logs each peer that has not acknowledged the abort (R112; the code is free, entry 60). -/
def Obligations.instance_resets : Prop :=
  (∀ (s : State) (r : RingId) (d : RingSlot), nextDesc s r.val 0x42 = some d →
    let id := dField d.desc 8 1
    1 ≤ id → id ≤ 64 → (instAt s id).st ≠ .resetting →
    ∃ t : State, exec (.instanceReset r) s = .next t ∧ (instAt t id).st = .resetting ∧ (instAt t id).resetStep = 1 ∧
      (instAt t id).resetBy = some (r.val, d.seq) ∧ (∀ i : Nat, i ≠ id → (instAt t i).st = (instAt s i).st) ∧ t.tck = s.tck) ∧
  (∀ (s : State) (h : InstId), h.val ≠ 0 → (instAt s h.val).st ≠ .resetting →
    ∃ t : State, exec (.vfFlr h) s = .next t ∧ (instAt t h.val).st = .resetting ∧ (instAt t h.val).resetStep = 1 ∧
      (instAt t h.val).incarn = (instAt s h.val).incarn ∧ (∀ i : Nat, i ≠ h.val → (instAt t i).st = (instAt s i).st) ∧
      t.tck = s.tck ∧ t.mem = s.mem) ∧
  (∀ s : State, ∃ t : State, exec .pfFlr s = .next t ∧ (∀ i : Nat, 1 ≤ i → i ≤ 64 → (instAt t i).st = .resetting) ∧
    (∀ r : Nat, r < 4 → (ringAt t r).enable = false ∧ (ringAt t r).head = 0 ∧ (ringAt t r).tail = 0 ∧ (ringAt t r).slots = []) ∧
    t.tck = s.tck) ∧
  (∀ (s : State) (h : InstId), (instAt s h.val).st = .resetting → (instAt s h.val).resetStep = 3 →
    ∃ t : State, exec (.resetSequenceEnd h) s = .next t ∧ (instAt t h.val).st = .empty ∧
      (instAt t h.val).incarn = (instAt s h.val).incarn + 1 ∧ instAt t h.val = afterReset (instAt s h.val) ∧
      t.errs.seq = s.errs.seq + BitVec.ofNat _ (instAt s h.val).abortWait.length ∧ InstsBut h.val s t ∧
      t.tck = s.tck ∧ t.mem = s.mem)

/-- A link that goes down or up takes that state, with its speed and width (R340). When P0 is down HOST_LINK_FAILOVER moves service to P1: no descriptor's transfer is left, plan images and sends stay, and every RUNNING hedge is marked to go HELD with cause 4; FAILOVER_FORCE does so where BAR0 may write P1's page; the loss of P1's link while it serves holds every RUNNING hedge too (R342). VF_ENABLE changes that VF's enable and nothing else (R343). -/
def Obligations.host_links : Prop :=
  (∀ (s : State) (l : Fin 2), ∃ t : State, exec (.pcieLinkDown l) s = .next t ∧ PagesBut [pgPort l.val 1] s t ∧
      pciAt t l.val = { pciAt s l.val with up := false, speed := 0, width := 0 } ∧
      (∀ n : Nat, n ≠ l.val → pciAt t n = pciAt s n) ∧ t = { s with pci := t.pci, pgs := t.pgs }) ∧
  (∀ (s : State) (l : Fin 2) (v : BitVec 4) (w : BitVec 5), 1 ≤ v.toNat → v.toNat ≤ 5 → (w = 4 ∨ w = 8 ∨ w = 16) →
    ∃ t : State, exec (.pcieLinkUp l v w) s = .next t ∧ PagesBut [pgPort l.val 1] s t ∧
      pciAt t l.val = { pciAt s l.val with up := true, speed := v, width := w } ∧
      (∀ n : Nat, n ≠ l.val → pciAt t n = pciAt s n) ∧ t = { s with pci := t.pci, pgs := t.pgs }) ∧
  (∀ s : State, s.failedOver = false → (pciAt s 0).up = false →
    ∃ t : State, exec .hostLinkFailover s = .next t ∧ t.failedOver = true ∧
      (∀ x, x ∈ t.xfers → x ∈ s.xfers ∧ ofDesc x = false ∧ x.dead = false) ∧
      (∀ h : Nat, (instAt s h).st = .running → (instAt t h).st = .running ∧ (instAt t h).holdNext = some 4) ∧ t.tck = s.tck) ∧
  (∀ s : State, s.failedOver = false → Bar0 s (pgPort 1 1) →
    ∃ t : State, exec .failoverForce s = .next t ∧ t.failedOver = true ∧
      (∀ x, x ∈ t.xfers → x ∈ s.xfers ∧ ofDesc x = false ∧ x.dead = false) ∧
      (∀ h : Nat, (instAt s h).st = .running → (instAt t h).holdNext = some 4)) ∧
  (∀ s : State, s.failedOver = true →
    ∃ t : State, exec .p1LinkLost s = .next t ∧ t.failedOver = true ∧ (pciAt t 1).up = false ∧ t.xfers = s.xfers ∧
      (∀ h : Nat, (instAt s h).st = .running → (instAt t h).holdNext = some 4)) ∧
  (∀ (s : State) (h : InstId) (on : Bool), h.val ≠ 0 →
    ∃ t : State, exec (.vfEnable h on) s = .next t ∧ instAt t h.val = { instAt s h.val with vfEnabled := on } ∧
      InstsBut h.val s t ∧ t = { s with insts := t.insts })

/-- On a sub-port that is up: a frame the FEC lost is counted in FECUNCORR and goes no further; one with a bad FCS is dropped and counted in PG_CNT2, one over 9,216 B or with two tags in PG_CNT3 (R297, R298); a runt, one with IP options or extension headers, a fragment, a datagram with a bad UDP checksum and a frame of no kind are dropped and counted in ETH_RXOTHER (R299, R300; a runt by entry 59). A good ARP request, neighbour solicitation or PFC frame joins the receive buffer at its end, a PTP message when PTP_CFG selects its port and transport (R300, R306), a datagram as a sensor packet when a bound channel matches it (R328), and else, on the port's UDP port, as the Kaluri packet that its bytes hold, when a flow takes it and its share has room (R304, R309, R311). Only that port, page counters and, for a Kaluri packet, PFC frames change. The first waiting ARP request, or neighbour solicitation, leaves the buffer, and one that names the port's own address puts one reply in the transmit queue, for management's slots (R300, R303). PFC_RECEIVE holds the named priorities that ETH_PFC.HONOR allows, and PFC_PAUSE_EXPIRY frees one (R301). -/
def Obligations.ethernet_receive : Prop :=
  (  ∀ (s : State) (n : PortId) (f : EthFrame),
    (ethAt s n.val).up.getLsbD (if isSplit s n.val then f.sub.toNat else 0) = true →
    let e := ethAt s n.val
    let c := e.fecCorr + BitVec.ofNat 32 f.fecCorrected
    (f.fecLost = true → ∃ t : State, exec (.ethFrameReceive n f) s = .next t ∧ t = { s with eth := t.eth } ∧
      ethAt t n.val = { e with fecCorr := c, fecUncorr := e.fecUncorr + 1 }) ∧
    (f.fecLost = false → (f.fcsOk = false ∨ 9216 < f.length ∨ 2 ≤ f.tags.length) →
      ∃ t : State, exec (.ethFrameReceive n f) s = .next t ∧ t = { s with eth := t.eth, pgs := t.pgs } ∧
        ethAt t n.val = { e with fecCorr := c } ∧ PagesBut [pgEth n.val] s t ∧
        ((hdrAt s (pgEth n.val)).freeze = false →
          cntAt (hdrAt t (pgEth n.val)) (if f.fcsOk then 3 else 2) = cntAt (hdrAt s (pgEth n.val)) (if f.fcsOk then 3 else 2) + 1)) ∧
    (f.fecLost = false → f.fcsOk = true → f.length ≤ 9216 → f.tags.length < 2 →
      (f.length < 64 ∨ f.ipOptions = true ∨ f.fragment = true ∨ f.body = .other ∨ ∃ u, f.body = .udp u ∧ udpOk u = false) →
      ∃ t : State, exec (.ethFrameReceive n f) s = .next t ∧ t = { s with eth := t.eth, pgs := t.pgs } ∧
          ethAt t n.val = { e with fecCorr := c, rxOther := e.rxOther + 1 } ∧ PagesBut [pgEth n.val] s t) ∧
    (f.fecLost = false → f.fcsOk = true → 64 ≤ f.length → f.length ≤ 9216 → f.tags.length < 2 → f.ipOptions = false →
      f.fragment = false →
      (∀ b : FrameBody,
        (f.body = .pfc ∧ b = .pfc ∨ (∃ a mac ip, f.body = .arp a mac ip ∧ b = .arp f.sub a mac ip) ∨
          (∃ a mac ip, f.body = .neighbour a mac ip ∧ b = .neighbour f.sub a mac ip) ∨
          (∃ m, f.body = .ptp m ∧ s.ptp.port.toNat = n.val ∧ s.ptp.transport.toNat = 2 ∧ b = .ptp m) ∨
          (∃ u, f.body = .udp u ∧ udpOk u = true ∧ b = .sensor (sensorOf n f u) ∧
            (List.range 16).any (fun k => snsMatch s (snsAt s k) (sensorOf n f u)) = true)) →
        ∃ t : State, exec (.ethFrameReceive n f) s = .next t ∧ t = { s with eth := t.eth, pgs := t.pgs } ∧
          ethAt t n.val = { e with fecCorr := c, rxq := e.rxq ++ [b] } ∧ PagesBut [pgEth n.val] s t) ∧
      (∀ (u : Udp) (p : KtPacket) (fl : Nat), f.body = .udp u → udpOk u = true → u.dstPort = (ktpAt s n.val).udpPort →
        (List.range 16).any (fun k => snsMatch s (snsAt s k) (sensorOf n f u)) = false → parseKt u = some p →
        flowOfPkt (ktpAt s n.val) p = some fl → authBad (ktpAt s n.val) fl p = false → p.ver = 1 → 1 ≤ p.typ.toNat → p.typ.toNat ≤ 6 →
        flowOccupancy s n.val fl + p.payload.length ≤ (flowView (ktpAt s n.val) fl).rxShare →
        ∃ t : State, exec (.ethFrameReceive n f) s = .next t ∧
          t = { s with eth := t.eth, out := t.out, pgs := t.pgs } ∧ (ethAt t n.val).rxq = e.rxq ++ [.kt p]))) ∧
(  (∀ (s : State) (n : PortId) (sub : BitVec 2) (target : Word) (mac : BitVec 48) (ip : Word),
    (ethAt s n.val).rxq.find? isArp = some (.arp sub target mac ip) →
    let e := { ethAt s n.val with rxq := (ethAt s n.val).rxq.eraseP isArp }
    ∃ t : State, exec (.arpRequest n) s = .next t ∧
      (target = (ethAt s n.val).ipv4 → t = { s with eth := t.eth, nextFrame := s.nextFrame + 1 } ∧
        ethAt t n.val = { e with txq := e.txq ++ [mgmtFrame s sub.toNat (.arpReply target mac ip)] }) ∧
      (target ≠ (ethAt s n.val).ipv4 → t = { s with eth := t.eth } ∧ ethAt t n.val = e)) ∧
  (∀ (s : State) (n : PortId) (sub : BitVec 2) (target : BitVec 128) (mac : BitVec 48) (ip : BitVec 128),
    (ethAt s n.val).rxq.find? isNd = some (.neighbour sub target mac ip) →
    let e := { ethAt s n.val with rxq := (ethAt s n.val).rxq.eraseP isNd }
    ∃ t : State, exec (.neighbourSolicitation n) s = .next t ∧
      (target = (ethAt s n.val).ipv6 → t = { s with eth := t.eth, nextFrame := s.nextFrame + 1 } ∧
        ethAt t n.val = { e with txq := e.txq ++ [mgmtFrame s sub.toNat (.neighbourReply target mac ip)] }) ∧
      (target ≠ (ethAt s n.val).ipv6 → t = { s with eth := t.eth } ∧ ethAt t n.val = e)) ∧
  (∀ (s : State) (n : PortId) (p : BitVec 8), (ethAt s n.val).rxq.any isPfc = true →
    ∃ t : State, exec (.pfcReceive n p) s = .next t ∧ t = { s with eth := t.eth } ∧
      ethAt t n.val = { ethAt s n.val with
        rxq := (ethAt s n.val).rxq.eraseP isPfc,
        paused := (ethAt s n.val).paused ||| (p &&& (ethAt s n.val).honor) }) ∧
  (∀ (s : State) (n : PortId) (q : Fin 8), ∃ t : State, exec (.pfcPauseExpiry n q) s = .next t ∧ t = { s with eth := t.eth } ∧
      (ethAt t n.val).paused.getLsbD q.val = false ∧
      (∀ k : Nat, k ≠ q.val → (ethAt t n.val).paused.getLsbD k = (ethAt s n.val).paused.getLsbD k)))

/-- The oldest PTP message of the selected port leaves the buffer; one of another domain does nothing else; a one-step Sync, or the Follow_Up of a two-step one, sets the offset t2 − t1 less the path delay, and a two-step Sync alone changes nothing; a Delay_Resp sets path delay and offset from the four timestamps; a management SET changes no field of the clock (R306). A Delay_Req is queued by a clock in state 8 or 9, an Announce or Sync by one in state 6, on the selected port for management's slots (R303, R306, R308), and clockClass 248 goes with it in holdover. The operation with which a frame leaves: a PTP message goes out with a time of its own (a free value, entry 59), and a two-step Sync puts its Follow_Up in the queue (R306). A write of PTP_CFG, where BAR0 may write, stages the port for the boundary and sets the other fields (R308). -/
def Obligations.ptp_clock : Prop :=
  (∀ (s : State) (m : PtpMsg), (ethAt s s.ptp.port.toNat).rxq.find? isPtp = some (.ptp m) →
    ∃ t : State, exec .ptpMessageReceive s = .next t ∧
      (ethAt t s.ptp.port.toNat).rxq = (ethAt s s.ptp.port.toNat).rxq.eraseP isPtp ∧
      (m.domain ≠ s.ptp.domain → t = { s with eth := t.eth }) ∧
      (m.domain = s.ptp.domain → (m.kind = .sync ∧ m.twoStep = false ∨ m.kind = .followUp) →
        t.ptp = { s.ptp with offset := m.t2 - m.t1 - s.ptp.delay }) ∧
      (m.domain = s.ptp.domain → m.kind = .sync → m.twoStep = true → t.ptp = s.ptp) ∧
      (m.domain = s.ptp.domain → m.kind = .delayResp →
        t.ptp = { s.ptp with
          delay := (m.t2 - m.t1 + (m.t4 - m.t3)) / 2, offset := (m.t2 - m.t1 - (m.t4 - m.t3)) / 2 }) ∧
      (m.kind = .mgmtSet → t.ptp = s.ptp)) ∧
  (∀ (s : State) (k : PtpTx), ((k = .delayReq ∧ (s.ptp.state = 8 ∨ s.ptp.state = 9)) ∨ (k = .sync ∨ k = .announce) ∧ s.ptp.state = 6) →
    ∃ t : State, exec (.ptpMessageTransmit k) s = .next t ∧ t = { s with eth := t.eth, nextFrame := s.nextFrame + 1 } ∧
      ethAt t s.ptp.port.toNat = { ethAt s s.ptp.port.toNat with txq := (ethAt s s.ptp.port.toNat).txq ++
        [mgmtFrame s 0 (.ptp k s.ptp.domain s.ptp.transport s.ptp.oneStep (if s.tck.holdover then some 248 else none))] }) ∧
  (∀ (s : State) (n sub : Nat) (f : TxFrame) (k : PtpTx) (d : BitVec 7) (tr : BitVec 2) (o : Bool) (c : Option Nat),
    f.body = .ptp k d tr o c →
    (∃ w : Word64, (sendFrame s n sub f).out = s.out ++ [.ptp n sub k d tr o c w]) ∧
    (k = .sync → o = false → ∃ g : TxFrame, (ethAt (sendFrame s n sub f) n).txq = (ethAt s n).txq ++ [g] ∧
      g.body = .ptp .followUp d tr o c ∧ g.owner = 0 ∧ g.sub = sub)) ∧
  (∀ (s : State) (v : Word), Bar0 s pgPtp →
    ∃ t : State, exec (.ptpCfgWrite v) s = .next t ∧ PagesBut [pgPtp, pgLink s] s t ∧ t = { s with ptp := t.ptp, pgs := t.pgs } ∧
      t.ptp.portStaged = some (v.extractLsb' 8 2) ∧ t.ptp.port = s.ptp.port ∧ t.ptp.domain = v.extractLsb' 0 7 ∧
      t.ptp.transport = v.extractLsb' 10 2 ∧ t.ptp.rxOnly = v.getLsbD 13 ∧ t.ptp.oneStep = v.getLsbD 12)

/-- The first waiting COUNTED or ORDERED packet leaves the buffer. When the checks of R311 and R324 accept it, its channel takes it, it is new, and its range lands in plain segments, its payload waits for the port-spine slots of the instance (R305, R314), and memory is as before; with no payload the channel counts it at once. The operation that a slot does with such a delivery: the bytes that its slot carries are written, and once the whole is in memory the delivery ends and the channel counts the packet exactly once (R305, R314). When authentication fails only KTP_AUTHFAIL of the instance grows: no memory changes (R324). The operation a receive channel counts with: the packet count grows by one and an ACK is due; on a counted channel the byte count grows by the payload's length, whatever the order of arrival (R314); a packet that is not the next expected leaves the expected PSN and is kept as received ahead (R293, R314). -/
def Obligations.kaluri_receive : Prop :=
  (  (∀ (s t0 : State) (n : PortId) (p : KtPacket) (f h va : Nat),
    takeFrame s n.val (isKt fun p => p.typ == 1 || p.typ == 2) = some (.kt p, t0) → checkPkt t0 n.val p = .ok f h →
    let c := chanView (instAt t0 h) p.channel
    takesPkt t0 n.val f h p = true → isDuplicate t0 h p.channel p.psn = false → landing c p = some va →
    plainRange (instAt t0 h) va p.payload.length = true →
    (p.payload ≠ [] → ∃ t : State, exec (.ktPacketReceive n) s = .next t ∧
      t = { s with eth := t.eth, deliveries := t.deliveries, nextXfer := s.nextXfer + 1, cals := t.cals, out := t.out } ∧
      t.deliveries = s.deliveries ++ [{
        id := s.nextXfer, inst := h, va := va, data := p.payload, written := p.payload.length, moved := 0, what := .kt n.val f p }] ∧
      (p.payload.length ≤ unitLeft va →
        let cal := spineCal (unitDie s h va).1 0
        (calAt t cal).queue = (calAt s cal).queue ++
          [{ owner := h, kind := .deliver s.nextXfer p.payload.length, left := p.payload.length, planned := true }])) ∧
    (p.payload = [] → ∃ t : State, exec (.ktPacketReceive n) s = .next t ∧
      chanXAt (instAt t h) p.channel = countPkt (chanXAt (instAt s h) p.channel) c.ordered (egressNs s n.val) p ∧
      InstsBut h s t ∧ t = { s with eth := t.eth, insts := t.insts, out := t.out })) ∧
  (∀ (s : State) (d : Delivery) (m f cal stop n ns : Nat) (p : KtPacket), s.deliveries.find? (fun e => e.id == d.id) = some d →
    d.what = .kt m f p → calClass cal = 2 →
    let t := moveDelivery s d.id cal stop n n ns
    let c := chanView (instAt s d.inst) p.channel
    t.mem = (vaWrite s d.inst (d.va + (stop - n)) ((d.data.drop (stop - n)).take n)).mem ∧
    (d.data.length ≤ d.moved + n → t.deliveries.any (fun e => e.id == d.id) = false ∧
      (c.opn = true → c.send = false → c.aborted = false →
        chanXAt (instAt t d.inst) p.channel = countPkt (chanXAt (instAt s d.inst) p.channel) c.ordered ns p)) ∧
    (d.moved + n < d.data.length → t.deliveries.find? (fun e => e.id == d.id) = some { d with moved := d.moved + n } ∧
      chanXAt (instAt t d.inst) p.channel = chanXAt (instAt s d.inst) p.channel)) ∧
  (∀ (s t0 : State) (n : PortId) (p : KtPacket) (h : Nat),
    takeFrame s n.val (isKt fun p => p.typ == 1 || p.typ == 2) = some (.kt p, t0) → checkPkt t0 n.val p = .authFail h →
    ∃ t : State, exec (.ktPacketReceive n) s = .next t ∧
      instAt t h = { instAt s h with authFail := (instAt s h).authFail + 1 } ∧ InstsBut h s t ∧
      t = { s with eth := t.eth, insts := t.insts, out := t.out })) ∧
(  ∀ (x : ChanX) (ordered : Bool) (ns : Nat) (p : KtPacket),
    (countPkt x ordered ns p).packets = x.packets + 1 ∧ (countPkt x ordered ns p).ackAt = some (x.ackAt.getD (ns : Int)) ∧
    (ordered = false → (countPkt x ordered ns p).bytes = x.bytes + BitVec.ofNat 64 p.payload.length) ∧
    (p.psn ≠ x.psn → (countPkt x ordered ns p).psn = x.psn ∧
      (countPkt x ordered ns p).ahead = x.ahead ++ [(p.psn, p.offset.toNat + p.payload.length)]) ∧
    (p.psn = x.psn → x.ahead.any (fun a => a.1 == p.psn + 1) = false → (countPkt x ordered ns p).psn = x.psn + 1))

/-- KT_ACK_SEND of an open receive channel whose ACK may leave in the egress slot in progress (R302, R303, R319) sends the channel's ACK, and the ACK is no longer due. An accepted ACK of an open send channel of an instance with no send in progress releases exactly the packets it acknowledges (R321). KT_RETRANSMIT of a packet of a channel that sends, 50 µs after its last transmission, sends it again with RETX in the slot in progress and counts it; after 8 retransmissions the channel is marked FAILED and nothing is sent (R321). -/
def Obligations.kaluri_acks_and_retransmission : Prop :=
  (∀ (s : State) (h : InstId) (ch : Fin 64) (m : Nat),
    let c := chanView (instAt s h.val) ch.val
    let x := chanXAt (instAt s h.val) ch.val
    slotNow s c.port = some m → ackMay s h.val ch.val m = true →
    ∃ t : State, exec (.ktAckSend h ch) s = .next t ∧
      t.out = s.out ++ [.frame c.port (frameSub (isSplit s c.port) (ackFrame s h.val ch.val))
        (wireFrame s c.port c.flow (ktPacket s c.port c.flow 4 c.remoteChan x.psn (sackMap x) [] false))] ∧
      chanXAt (instAt t h.val) ch.val = { x with ackAt := none } ∧ InstsBut h.val s t ∧ t.mem = s.mem ∧ t.tck = s.tck) ∧
  (∀ (s t0 : State) (n : PortId) (p : KtPacket) (f h : Nat),
    takeFrame s n.val (isKt fun p => p.typ == 4) = some (.kt p, t0) → checkPkt t0 n.val p = .ok f h →
    let c := chanView (instAt t0 h) p.channel
    c.opn = true → c.send = true → c.flow = f → c.port = n.val → p.channel < 64 → s.xfers.any (isSendOf h) = false →
    ∃ t : State, exec (.ktAckReceive n) s = .next t ∧
      (chanXAt (instAt t h) p.channel).unacked =
        (chanXAt (instAt s h) p.channel).unacked.filter (fun q => !(acked p q.psn)) ∧ InstsBut h s t ∧ t.mem = s.mem) ∧
  (∀ (s : State) (h : InstId) (ch : Fin 64) (psn : Word) (q : SentPkt) (m : Nat),
    let c := chanView (instAt s h.val) ch.val
    (chanXAt (instAt s h.val) ch.val).unacked.find? (fun q => q.psn == psn) = some q → slotNow s c.port = some m →
    chanSilent s h.val ch.val = false → retxDue q (slotStart (egressCal c.port) m) = true →
    (8 ≤ q.tries → ∃ t : State, exec (.ktRetransmit h ch psn) s = .next t ∧ t.out = s.out ∧
      (chanView (instAt t h.val) ch.val).failed = true ∧ InstsBut h.val s t) ∧
    (q.tries < 8 → ctrSpent s c.port c.flow = false → unplannedRoom s c.port h.val m (retxFrame s h.val ch.val q) = true →
      ∃ t : State, exec (.ktRetransmit h ch psn) s = .next t ∧
        (∃ k : KtPacket, t.out = s.out ++ [.frame c.port (frameSub (isSplit s c.port) (retxFrame s h.val ch.val q))
            (wireFrame s c.port c.flow k)] ∧
          k.retx = true ∧ k.psn = q.psn ∧ k.offset = q.offset ∧ k.payload = q.data ∧ k.channel = c.remoteChan) ∧
        (instAt t h.val).retx = (instAt s h.val).retx + 1 ∧ InstsBut h.val s t ∧ t.mem = s.mem))

/-- An accepted ABORT completes so: the flow is marked aborted, every open receive channel of the flow is marked ABORTED, no send of those channels stays unacknowledged, what has not reached memory on the flow and the instance's queued frames of it are dropped, and one ABORT_ACK joins the port's transmit queue for management's slots (R303, R323). One for a stale incarnation only gets that answer (R323). An accepted ABORT_ACK takes its port and flow off the instance's list of peers to wait for, and changes nothing else of any instance (R112). ABORT_RESEND of a RESETTING instance puts exactly one ABORT for each peer on that list at the end of its port's transmit queue, in the list's order, and changes nothing else (R112). -/
def Obligations.kaluri_aborts : Prop :=
  (∀ (s t0 : State) (n : PortId) (p : KtPacket) (f h : Nat), takeFrame s n.val (isKt fun p => p.typ == 5) = some (.kt p, t0) →
    checkPkt t0 n.val p = .ok f h →
    ∃ t : State, exec (.ktAbortReceive n) s = .next t ∧ (flowXAt (ktpAt t n.val) f).aborted = true ∧
      (∀ c : Nat, c ∈ chansOfFlow (instAt t0 h) n.val f → (chanXAt (instAt t h) c).unacked = []) ∧
      (∀ c : Nat, c ∈ chansOfFlow (instAt t0 h) n.val f → (chanView (instAt t0 h) c).send = false →
        (chanView (instAt t h) c).aborted = true) ∧
      t.deliveries = s.deliveries.filter (fun d => !(onFlow n.val f d)) ∧
      (ethAt t n.val).txq =
        (ethAt s n.val).txq.filter (fun g => !(frameFlow g == some f && g.inst == h && decide (g.rank ≤ 3))) ++
          [ktFrame s n.val f 0 4 (ktPacket s n.val f 6 0 0 0 [] false)] ∧
      InstsBut h s t ∧ t.mem = s.mem ∧ t.tck = s.tck) ∧
  (∀ (s t0 : State) (n : PortId) (p : KtPacket) (f h : Nat), takeFrame s n.val (isKt fun p => p.typ == 5) = some (.kt p, t0) →
    checkPkt t0 n.val p = .drop h → flowOfPkt (ktpAt t0 n.val) p = some f →
    ∃ t : State, exec (.ktAbortReceive n) s = .next t ∧
      t = { s with eth := t.eth, nextFrame := s.nextFrame + 1, out := t.out } ∧
      (ethAt t n.val).txq = (ethAt s n.val).txq ++ [ktFrame s n.val f 0 4 (ktPacket s n.val f 6 0 0 0 [] false)]) ∧
  (∀ (s t0 : State) (n : PortId) (p : KtPacket) (f h : Nat), takeFrame s n.val (isKt fun p => p.typ == 6) = some (.kt p, t0) →
    checkPkt t0 n.val p = .ok f h →
    ∃ t : State, exec (.abortAckReceive n) s = .next t ∧
      instAt t h = { instAt s h with abortWait := (instAt s h).abortWait.filter (fun a => a != (n.val, f)) } ∧ InstsBut h s t ∧
      t = { s with eth := t.eth, insts := t.insts, out := t.out }) ∧
  (∀ (s : State) (h : InstId), (instAt s h.val).st = .resetting →
    let peers := (instAt s h.val).abortWait
    let abort (n i f : Nat) : TxFrame := { ktFrame s n f 0 4 (ktPacket s n f 5 0 0 0 [] false) with id := s.nextFrame + i }
    ∃ t : State, exec (.abortResend h) s = .next t ∧
      t = { s with eth := t.eth, nextFrame := s.nextFrame + peers.length } ∧
      ∀ n : Nat, ethAt t n = { ethAt s n with txq := (ethAt s n).txq ++
        ((List.range peers.length).zip peers).filterMap fun a => if a.2.1 = n then some (abort n a.1 a.2.2) else none })

/-- ETH_LINK_DOWN takes the named sub-ports down and marks each RUNNING instance with a flow or a sensor channel on one that was up to go HELD at the boundary with cause 5 (R361). ETH_LINK_UP brings sub-ports up, applies the written mode to a port that was wholly down, and changes no instance's state. LINK_EQUALISATION of an Ethernet lane of a port die at any time, and of a die link's lane in OPEN, moves the setting to the wanted value clamped into the die's envelope, and outside it counts the conflict; otherwise nothing changes (R394, R398). -/
def Obligations.ethernet_links : Prop :=
  (∀ (s : State) (n : PortId) (b : BitVec 4), ∃ t : State, exec (.ethLinkDown n b) s = .next t ∧ PagesBut [6, pgEth n.val] s t ∧
      ethAt t n.val = { ethAt s n.val with up := (ethAt s n.val).up &&& ~~~b } ∧
      (∀ h, h ∈ instsOnPort s n.val (b &&& (ethAt s n.val).up) → (instAt s h).st = .running →
        instAt t h = { instAt s h with holdNext := some 5 }) ∧
      (∀ h, h ∉ instsOnPort s n.val (b &&& (ethAt s n.val).up) → instAt t h = instAt s h) ∧
      t = { s with eth := t.eth, insts := t.insts, fresh := s.fresh + 1, out := t.out, errs := t.errs, pgs := t.pgs }) ∧
  (∀ (s : State) (n : PortId) (b : BitVec 4), ∃ t : State, exec (.ethLinkUp n b) s = .next t ∧
      ethAt t n.val = { ethAt s n.val with
        up := (ethAt s n.val).up ||| b,
        modeNow := if (ethAt s n.val).up = 0 then (ethAt s n.val).mode else (ethAt s n.val).modeNow } ∧
      (∀ h, (instAt t h).st = (instAt s h).st) ∧ t.tck = s.tck ∧ t.mem = s.mem) ∧
  (∀ (s : State) (d : Fin 12) (eth : Bool) (lane : Fin 256) (w : Int),
    let lo : Int := (avsAt s d.val).eqLo
    let hi : Int := (avsAt s d.val).eqHi
    let key := lane.val * 2 + b2n eth
    let may := eth = true ∧ 8 ≤ d.val ∨ eth = false ∧ s.tck.phase = .openP
    (may → ∃ t : State, exec (.linkEqualisation d eth lane w) s = .next t ∧ mget (avsAt t d.val).eq 0 key = max lo (min hi w) ∧
      (∀ k : Nat, k ≠ key → mget (avsAt t d.val).eq 0 k = mget (avsAt s d.val).eq 0 k) ∧
      (lo ≤ w → w ≤ hi → t = { s with avs := t.avs, pgs := t.pgs } ∧ PagesBut [pgAvs d.val] s t) ∧
      (w < lo ∨ hi < w → (avsAt t d.val).eqConf = (avsAt s d.val).eqConf + 1)) ∧
    (¬may → exec (.linkEqualisation d eth lane w) s = .next s))

/-- SENSOR_BIND of the ring's next descriptor is staged for the boundary when no rule refuses it, and otherwise completes REFUSED_BIND (R326–R330). A matched packet larger than what the channel's bucket, or its staging buffer, holds is dropped and counted, and marks an open frame (R335). One within both, on an unframed channel with no frame open, with a slot free and fitting it, makes one frame: the next index moves by one, no frame stays open, and its payload waits for the writer's slots (for a channel bound to a port of another die, first for the management slots that take it there, R329), to be written behind the header's place in the frame's slot (R331–R333, R336, R339). At OPEN a bound channel publishes the frames it has accepted (R337). A timeout on a channel with no open frame changes nothing; with one, no frame stays open (R332). -/
def Obligations.sensor_streams : Prop :=
  (∀ (s : State) (r : RingId) (d : RingSlot), nextDesc s r.val 8 = some d →
    let c := bits (dField d.desc 8 4) 3 0
    (bindRefused s (ringAt s r.val).owner c (bindOf d.desc) = false →
      ∃ t : State, exec (.sensorBind r) s = .next t ∧ t = { s with rings := t.rings, sns := t.sns } ∧
        snsAt t c = { snsAt s c with staged := some (bindOf d.desc, r.val, d.seq) } ∧ (∀ k : Nat, k ≠ c → snsAt t k = snsAt s k)) ∧
    (bindRefused s (ringAt s r.val).owner c (bindOf d.desc) = true →
      exec (.sensorBind r) s = .next (finishDesc (beginDesc s r.val d.seq) r.val d.seq 0x09 0))) ∧
  (∀ (s t0 : State) (ch : Fin 16) (p : SensorPkt),
    let x := snsAt s ch.val
    let n := x.bind.port.toNat
    takeFrame s n (isFor s x n) = some (.sensor p, t0) →
    (bucketNow x p.ptpNs.toNat < p.payload.length ∨ 262144 < stagedBytes s ch.val + p.payload.length →
      ∃ t : State, exec (.sensorPacketReceive ch) s = .next t ∧ (snsAt t ch.val).policed = x.policed + 1 ∧
        (snsAt t ch.val).openF = x.openF.map (fun f => { f with flags := f.flags ||| 4 }) ∧
        (snsAt t ch.val).nextIdx = x.nextIdx ∧ t.mem = s.mem ∧ t.insts = s.insts ∧ t.deliveries = s.deliveries) ∧
    (p.payload.length ≤ bucketNow x p.ptpNs.toNat → stagedBytes s ch.val + p.payload.length ≤ 262144 → x.bind.framing = false → x.openF = none →
      p.payload.length ≤ slotCap x.bind → (x.nextIdx - x.cons).toNat ≠ slotCount x.bind →
      ∃ t : State, exec (.sensorPacketReceive ch) s = .next t ∧ (snsAt t ch.val).nextIdx = x.nextIdx + 1 ∧
        (snsAt t ch.val).openF = none ∧ (snsAt t ch.val).policed = x.policed ∧
        (snsAt t ch.val).bucket = bucketNow x p.ptpNs.toNat - p.payload.length ∧ t.insts = s.insts ∧ t.mem = s.mem ∧
        (p.payload ≠ [] → ∃ d : Delivery, d ∈ t.deliveries ∧ d.va = slotVa x.bind x.nextIdx + 64 ∧ d.data = p.payload ∧
          d.what = .sensor ch.val x.nextIdx ∧ d.written = 0))) ∧
  (∀ (s : State) (c : Nat), (snsAt s c).bound = true →
    (snsAt (publishChannel s c) c).prod = (snsAt s c).accepted ∧ ∀ k : Nat, k ≠ c → snsAt (publishChannel s c) k = snsAt s k) ∧
  (∀ (s : State) (ch : Fin 16) (ofs : Word), ∃ t : State, exec (.sensorFrameTimeout ch ofs) s = .next t ∧
      (snsAt t ch.val).openF = none ∧ ((snsAt s ch.val).openF = none → t = s) ∧ t.insts = s.insts ∧
      ∀ k : Nat, k ≠ ch.val → snsAt t k = snsAt s k)

/-- A heartbeat of a live supervisor, not of an older term, clears the receiver's count of misses, suspicion and vote for the sender and gives it the term (R387, R389). A missed one counts; before the third nothing else of a supervisor changes, and the third makes the receiver suspect the sender and vote; with another live supervisor already suspecting it and at least two live voters, the sender is declared failed (R387, R388). SUP_FORCE, where BAR0 may write P1's page, waits for the boundary (R392). A management write to PG_ERRINJ of a page that serves, can inject, is not locked and has none armed: with GO and a code of the page (entry 13) it is armed with its code and target; with GO and any other code the register reads 0; nothing else but page counters changes (R456). ERROR_INJECT_FIRE of an armed injection that need not wait clears GO (R401), and on the TCK page loses the lock source as the real fault does (R42); with none armed nothing happens. -/
def Obligations.supervisors_and_injection : Prop :=
  (  (∀ (s : State) (a b : PortId) (term : Word), a ≠ b → (supAt s a.val).failed = false →
    (supAt s b.val).term.toNat ≤ term.toNat →
    ∃ t : State, exec (.heartbeat a b term) s = .next t ∧ t = { s with sup := t.sup, pgs := t.pgs } ∧
      mget (supAt t b.val).missed 0 a.val = 0 ∧ (supAt t b.val).suspect.getLsbD a.val = false ∧
      (supAt t b.val).voted.getLsbD a.val = false ∧ (supAt t b.val).term = term ∧
      (∀ n : Nat, n ≠ b.val → supAt t n = supAt s n) ∧ PagesBut [pgSup a.val, pgSup b.val] s t) ∧
  (∀ (s : State) (a b : PortId), a ≠ b → (supAt s a.val).failed = false → (supAt s b.val).failed = false →
    (mget (supAt s b.val).missed 0 a.val < 2 →
      ∃ t : State, exec (.heartbeatMissed a b) s = .next t ∧ PagesBut [6, pgSup b.val] s t ∧
        supAt t b.val = { supAt s b.val with
          missed := mset (supAt s b.val).missed 0 a.val (mget (supAt s b.val).missed 0 a.val + 1) } ∧
        (∀ n : Nat, n ≠ b.val → supAt t n = supAt s n)) ∧
    (2 ≤ mget (supAt s b.val).missed 0 a.val → (supAt s b.val).suspect.getLsbD a.val = false →
      ∃ t : State, exec (.heartbeatMissed a b) s = .next t ∧ (supAt t b.val).suspect.getLsbD a.val = true ∧
        (supAt t b.val).voted.getLsbD a.val = true ∧ t.mem = s.mem ∧
        (∀ m : Nat, m < 4 → m ≠ a.val → m ≠ b.val → (supAt s m).failed = false → (supAt s m).suspect.getLsbD a.val = true →
          (supAt t a.val).failed = true))) ∧
  (∀ s : State, Bar0 s (pgSup 1) → ∃ t : State, exec .supForce s = .next t ∧ PagesBut [pgSup 1, pgLink s] s t ∧
      supAt t 1 = { supAt s 1 with force := true } ∧ (∀ n : Nat, n ≠ 1 → supAt t n = supAt s n) ∧
      t = { s with sup := t.sup, pgs := t.pgs })) ∧
(  (∀ (s : State) (addr : BitVec 28) (v : Word), s.pwr.saving = false → pageServes s (addr.toNat / 4096) = true →
    pageOf (addr.toNat / 4096) ≠ .absent → canInject (pageOf (addr.toNat / 4096)) = true →
    locked s (addr.toNat / 4096) = false → (hdrAt s (addr.toNat / 4096)).injGo = false → v.getLsbD 31 = true →
    ∃ t : State, exec (.errorInject addr v) s = .next t ∧ t = { s with pgs := t.pgs } ∧ PagesBut [addr.toNat / 4096] s t ∧
      ((detectable (pageId (pageOf (addr.toNat / 4096))).1).contains (v.toNat % 65536) = true →
        (hdrAt t (addr.toNat / 4096)).injGo = true ∧ (hdrAt t (addr.toNat / 4096)).injCode = v.extractLsb' 0 16 ∧
        (hdrAt t (addr.toNat / 4096)).injTarget = v.extractLsb' 16 8) ∧
      ((detectable (pageId (pageOf (addr.toNat / 4096))).1).contains (v.toNat % 65536) = false →
        (hdrAt t (addr.toNat / 4096)).injGo = false ∧ (hdrAt t (addr.toNat / 4096)).injCode = 0 ∧
        (hdrAt t (addr.toNat / 4096)).injTarget = 0)) ∧
  (∀ (s : State) (addr : BitVec 28), addr.toNat / 4096 = 1 → (hdrAt s 1).injGo = true →
    ∃ t : State, exec (.errorInjectFire addr) s = .next t ∧ (hdrAt t 1).injGo = false ∧
      t.tck = { s.tck with srcLost := true, holdover := true, locked := false, goodTicks := 0 } ∧
      t.errs.seq = s.errs.seq + 1 ∧ t.mem = s.mem ∧ t.insts = s.insts) ∧
  (∀ (s : State) (addr : BitVec 28), (hdrAt s (addr.toNat / 4096)).injGo = false →
    exec (.errorInjectFire addr) s = .next s))

/-- Where BAR0 may write the page, an envelope within the fused limits and not empty is staged for the boundary, and any other is ignored with PG_ERR bit 0 (R394, R395). In OPEN, after enough clean ticks, without the override and inside the effective envelope of the boundary, the grade steps one faster and the count starts over; at the envelope's fast end the count starts over and the conflict is counted (R31, R394, R396, R492). The operation the boundary applies: the effective envelope is AVS_GENV with that of every instance RUNNING before or after the boundary's changes (R396, R492). The override ends after 1,024 ticks with every part below warning (R421); before that the command changes nothing. -/
def Obligations.adaptive_loops : Prop :=
  (∀ (s : State) (d : Fin 12) (v : Word), Bar0 s (pgAvs d.val) →
    let lo := v.toNat % 4096
    let hi := v.toNat / 65536 % 4096
    let a := avsAt s d.val
    ∃ t : State, exec (.avsVenvWrite d v) s = .next t ∧ PagesBut [pgAvs d.val, pgLink s] s t ∧
      t = { s with avs := t.avs, pgs := t.pgs } ∧
      (a.fusedMin ≤ lo → lo ≤ hi → hi ≤ a.fusedMax → avsAt t d.val = { a with staged := some (lo, hi) }) ∧
      (lo < a.fusedMin ∨ a.fusedMax < hi ∨ hi < lo → t.avs = s.avs ∧ (hdrAt t (pgAvs d.val)).err.getLsbD 0 = true)) ∧
  (∀ s : State, s.tck.phase = .openP → gupLimit s.avsDev ≤ s.avsDev.clean → s.thm.override = false →
    s.avsDev.effFast < s.avsDev.grade →
    ∃ t : State, exec .gradeStepUp s = .next t ∧ PagesBut [pgAvsDev] s t ∧
      t = { s with avsDev := { s.avsDev with clean := 0, grade := s.avsDev.grade - 1 }, pgs := t.pgs }) ∧
  (∀ s : State, s.tck.phase = .openP → gupLimit s.avsDev ≤ s.avsDev.clean → s.thm.override = false →
    s.avsDev.grade ≠ 0 → s.avsDev.grade ≤ s.avsDev.effFast →
    ∃ t : State, exec .gradeStepUp s = .next t ∧ t.avsDev.grade = s.avsDev.grade ∧ t.avsDev.clean = 0 ∧
      t.avsDev.gconf = s.avsDev.gconf + 1 ∧ t.tck = s.tck ∧ t.insts = s.insts) ∧
  (∀ (before s : State) (crit : Bool) (w : Nat),
    (gradeLoop before crit w s).avsDev.effFast = (effEnvelope before s).1 ∧
    (gradeLoop before crit w s).avsDev.effSlow = (effEnvelope before s).2) ∧
  (∀ s : State, s.tck.phase ≠ .openP → exec .gradeStepUp s = .next s) ∧
  (∀ s : State, s.thm.override = true → 1024 ≤ s.thm.below →
    ∃ t : State, exec .thermalOverrideClear s = .next t ∧ PagesBut [pgThm] s t ∧
      t = { s with thm := { s.thm with override := false }, pgs := t.pgs }) ∧
  (∀ s : State, s.thm.below < 1024 → exec .thermalOverrideClear s = .next s)

/-- From a module that is on, ready and not saving, each save cause that acts (the input, a leak, a shutdown request, the coolant, the trip temperature or software) starts the save: it records the cause, invalidates both MRAM headers and changes nothing else of the MRAMs, begins a save set whose header holds MAGIC, FORMAT, the cause, the device tick and the next sequence number where Table — Save-set header puts them, clears every staged repair, and discards the tick of each hedge that can still commit (R409–R413). A second trigger during a save changes nothing (R409). During a save on a module that is on: SAVE_POWER_DOWN switches compute dies, HBM and links off, every link down (R411); SAVE_COMPLETE writes the save set to both MRAMs, keeps its sequence number and switches the module off (R413, R414); SAVE_BANK_EXHAUSTED switches it off with neither MRAM changed and the save marked interrupted (R415). -/
def Obligations.save_sequence : Prop :=
  (  (∀ (s : State) (cause : Nat), s.pwr.saving = false → s.pwr.on = true → s.glb.ready = true →
    let t := startSave s cause
    t.pwr.saving = true ∧ t.pwr.cause = cause ∧ readLe t.pwr.mram0 0 4 = 0 ∧ readLe t.pwr.mram1 0 4 = 0 ∧
    (∀ a : Nat, 4 ≤ a → byteAt t.pwr.mram0 a = byteAt s.pwr.mram0 a ∧ byteAt t.pwr.mram1 a = byteAt s.pwr.mram1 a) ∧
    t.fabric.repPend = [] ∧ t.tck = s.tck ∧ t.mem = s.mem ∧
    (∃ w : Bytes, t.pwr.writing = some w ∧ readLe w 0 4 = 0x53575A57 ∧ readLe w 4 2 = 1 ∧ readLe w 6 1 = cause % 256 ∧
      readLe w 8 8 = s.tck.devTick.toNat ∧ seqIn w = (lastSeq s + 1).toNat) ∧
    (∀ h : Nat, Working (instAt s h) → (instAt t h).dFault = true)) ∧
  (∀ (s : State) (cause : Nat), s.pwr.saving = true → startSave s cause = s) ∧
  (∀ (s : State) (cause : Fin 8), causeActs s cause.val = true →
    exec (.saveTrigger cause) s = .next (startSave s cause.val)) ∧
  (∀ s : State, Bar0 s pgPwr → s.pwr.on = true → ∃ t : State, exec .pwrShutdown s = .next t ∧ t.pwr.saving = true ∧ t.pwr.cause = 7) ∧
  (∀ s : State, lineOk s 9 = true → s.pwr.leakAct = true → exec .leakDetected s = .next (startSave (bump s pgPwr 5) 3)) ∧
  (∀ s : State, lineOk s 9 = true → s.pwr.leakAct = false → ∃ t : State, exec .leakDetected s = .next t ∧
      t = { s with fresh := s.fresh + 1, errs := t.errs, pgs := t.pgs }) ∧
  (∀ s : State, s.pwr.shdnEn = true → mget s.pwr.fld 0 14 ≠ 1 → exec .shdnReq s = .next (startSave s 6)) ∧
  (∀ s : State, lineOk s 10 = true → (10 * s.thm.coolTrip : Int) < s.thm.coolT → exec .coolantTrip s = .next (startSave s 4))) ∧
(  (∀ s : State, s.pwr.saving = true → s.pwr.on = true → s.pwr.computeOn = true →
    ∃ t : State, exec .savePowerDown s = .next t ∧ t = { s with pwr := { s.pwr with computeOn := false }, pci := t.pci, eth := t.eth } ∧
      (∀ n : Nat, (pciAt t n).up = false) ∧ (∀ n : Nat, (ethAt t n).up = 0)) ∧
  (∀ (s : State) (us : Word) (w : Bytes), s.pwr.saving = true → s.pwr.on = true → s.pwr.writing = some w →
    ∃ t : State, exec (.saveComplete us) s = .next t ∧ t.pwr = { s.pwr with
        mram0 := w, mram1 := w, writing := none, saveSeq := BitVec.ofNat 32 (seqIn w), on := false } ∧
      t = { s with pwr := t.pwr, fresh := s.fresh + 1, out := t.out, errs := t.errs, pgs := t.pgs } ∧ PagesBut [6] s t) ∧
  (∀ s : State, s.pwr.saving = true → s.pwr.on = true →
    ∃ t : State, exec .saveBankExhausted s = .next t ∧ t = { s with pwr := t.pwr, out := t.out } ∧
      t.pwr = { s.pwr with writing := none, on := false, interrupted := true }))

/-- SAG_WARN below 42 V sets the warning once, counts and logs it; SAG_WARN_CLEAR above 42.5 V clears it (R404). HOLD_BANK_CLASSIFY, once the input has permitted the start, takes the class of the measurements, REVERSED, SHORT, OPEN, UNDERSIZED, ESR_HIGH or OK, and HOLD_OK only with OK; HOLD_CHARGE_RETRY does so for a bank classed SHORT (R406). A class change in operation is counted, HOLD_OK follows it, and the measured capacitance and ESR are shown; outside a save an overcurrent opens the bank switch (R408). A field line that changes state reports it, is counted and logged, and a driver on a line that is SHORT or FOREIGN is off until its retry, when it is on again (R426). KEEP_LOAD, where BAR0 may write the instance's page, of a keep whose incarnation is the instance's own, on a hedge that is not RUNNING with a keep source, and none on its way, sends the keep toward the keep source in the instance's own slots; once the whole is in memory KEEP_STS reports it loaded (R19, R419). -/
def Obligations.input_bank_and_field_connector : Prop :=
  (  (∀ (s : State) (mv : BitVec 16), mv.toNat < 42000 → s.pwr.sagWarn = false →
    ∃ t : State, exec (.sagWarn mv) s = .next t ∧ PagesBut [6, pgPwr] s t ∧
      t = { s with pwr := { s.pwr with vin := mv, sagWarn := true }, fresh := s.fresh + 1, errs := t.errs, pgs := t.pgs }) ∧
  (∀ (s : State) (mv : BitVec 16), ∃ t : State, exec (.sagWarnClear mv) s = .next t ∧ PagesBut [pgPwr] s t ∧
      t = { s with pwr := { s.pwr with vin := mv, sagWarn := s.pwr.sagWarn && !decide (42500 < mv.toNat) }, pgs := t.pgs }) ∧
  (∀ (s : State) (b : BankIn), s.pwr.permitted = true →
    ∃ t : State, exec (.holdBankClassify b) s = .next t ∧ PagesBut [pgPwr] s t ∧ t = { s with pwr := t.pwr, pgs := t.pgs } ∧
      t.pwr.charging = false ∧ t.pwr.holdOk = decide (t.pwr.holdClass = 0) ∧
      t.pwr.holdClass = (if b.reversed then 1 else if b.mv50ms < 2000 then 3 else if b.us40to50 < 3000 then 2
        else if b.us40to50 < 33000 then 4 else if 500 < b.esr then 5 else 0)) ∧
  (∀ (s : State) (b : BankIn), s.pwr.permitted = true → s.pwr.holdClass = 3 →
    exec (.holdChargeRetry b) s = exec (.holdBankClassify b) s) ∧
  (∀ (s : State) (c : BitVec 3) (mf esr : BitVec 16), c ≠ s.pwr.holdClass → c.toNat ≤ 5 →
    ∃ t : State, exec (.holdBankClassChange c mf esr) s = .next t ∧ PagesBut [6, pgPwr] s t ∧
      t.pwr = { s.pwr with holdClass := c, holdOk := decide (c = 0), holdC := mf, holdEsr := esr } ∧ (s.pwr.holdOk = false → t.errs = s.errs)) ∧
  (∀ s : State, s.pwr.saving = false → ∃ t : State, exec .holdBankOvercurrent s = .next t ∧ PagesBut [pgPwr] s t ∧
      t = { s with pwr := { s.pwr with bankSwitch := false }, pgs := t.pgs })) ∧
(  (∀ (s : State) (l : Fin 17) (st : BitVec 2), mget s.pwr.fld 0 l.val ≠ st →
    ∃ t : State, exec (.fieldLineChange l st) s = .next t ∧ PagesBut [6, pgPwr] s t ∧ mget t.pwr.fld 0 l.val = st ∧
      (∀ k : Nat, k ≠ l.val → mget t.pwr.fld 0 k = mget s.pwr.fld 0 k) ∧
      (drivenLine s l.val = true → 2 ≤ st.toNat → driverOn t l.val = false) ∧
      t = { s with pwr := t.pwr, fresh := s.fresh + 1, out := t.out, errs := t.errs, pgs := t.pgs }) ∧
  (∀ (s : State) (l : Fin 17), driverOn s l.val = false →
    ∃ t : State, exec (.fieldDriverRetry l) s = .next t ∧ driverOn t l.val = true ∧ t = { s with pwr := t.pwr, out := t.out } ∧
      t.pwr = { s.pwr with driverOff := t.pwr.driverOff }) ∧
  (∀ (s : State) (h : InstId) (bytes : List Byte), h.val ≠ 0 → Bar0 s (pgPwrI h.val) →
    (instAt s h.val).keep = some ((instAt s h.val).incarn, bytes) → (instAt s h.val).st ≠ .running →
    (instAt s h.val).keepSrc ≠ 0 → s.deliveries.any (fun d => d.inst == h.val && d.what == .keep) = false →
    ∃ t : State, exec (.keepLoad h) s = .next t ∧ PagesBut [pgPwrI h.val, pgLink s] s t ∧
      t.deliveries = s.deliveries ++ [{
        id := s.nextXfer, inst := h.val, va := (instAt s h.val).keepSrc.toNat, data := bytes, written := bytes.length, moved := 0
        what := .keep }] ∧
      t = { s with deliveries := t.deliveries, nextXfer := s.nextXfer + 1, cals := t.cals, pgs := t.pgs }) ∧
  (∀ (s : State) (d : Delivery) (cal stop n ns : Nat), s.deliveries.find? (fun e => e.id == d.id) = some d → d.what = .keep →
    calClass cal = 2 → d.data.length ≤ d.moved + n →
    let t := moveDelivery s d.id cal stop n n ns
    (instAt t d.inst).keepSts = 2 ∧ t.deliveries.any (fun e => e.id == d.id) = false ∧
    t.mem = (vaWrite s d.inst (d.va + (stop - n)) ((d.data.drop (stop - n)).take n)).mem))

/-- Outside a save, a Hot Reset of a module that is on returns it to stage ROM with every instance EMPTY, no calendar, ring or memory content, and what flash, fuses and both MRAMs hold kept (R430); so does a power-up reset, which leaves the input to prove good. MODULE_START permits the start: a module that is off starts with a device reset, one that is on shows its good input (R402). Releasing PERST# lets the stages run once the module is on and its start permitted (R431). -/
def Obligations.resets_and_start : Prop :=
  (∀ s : State, ¬(s.pwr.saving = true ∧ s.pwr.on = true) → s.pwr.on = true →
    ∃ t : State, exec (.deviceReset .hotReset) s = .next t ∧ t.glb.stage = 0 ∧ t.glb.ready = false ∧ t.insts = [] ∧ t.cals = [] ∧
      t.rings = [] ∧ t.mem = [] ∧ t.glb.flash = s.glb.flash ∧ t.glb.fused0 = s.glb.fused0 ∧ t.glb.fused1 = s.glb.fused1 ∧
      t.pwr.mram0 = s.pwr.mram0 ∧ t.pwr.mram1 = s.pwr.mram1 ∧ t.pwr.saving = false) ∧
  (∀ s : State, ¬(s.pwr.saving = true ∧ s.pwr.on = true) →
    ∃ t : State, exec (.deviceReset .powerUp) s = .next t ∧ t.glb.stage = 0 ∧ t.insts = [] ∧ t.pwr.inputOk = false ∧ t.pwr.permitted = false ∧
      t.glb.perst = false ∧ t.glb.t0 = false ∧ t.glb.flash = s.glb.flash) ∧
  (∀ s : State, s.pwr.on = false →
    ∃ t : State, exec .moduleStart s = .next t ∧ t.pwr.on = true ∧ t.pwr.inputOk = true ∧ t.glb.stage = 0 ∧
      t.glb.t0 = s.glb.perst ∧ t.insts = [] ∧ t.pwr.mram0 = s.pwr.mram0) ∧
  (∀ s : State, s.pwr.on = true → s.pwr.permitted = false → s.pwr.saving = false →
    ∃ t : State, exec .moduleStart s = .next t ∧ t.pwr.permitted = true ∧ t.pwr.inputOk = true ∧ t.glb.t0 = s.glb.perst ∧
      t.insts = s.insts ∧ t.tck = s.tck ∧ t.mem = s.mem) ∧
  (∀ s : State, s.glb.perst = false →
    exec .perstDeassertion s =
      .next { s with glb := { s.glb with perst := true, t0 := s.pwr.on && s.pwr.permitted } })

/-- While the stages run, STARTUP_STAGE_DONE moves ROM to FIRMWARE, FIRMWARE to MEMORY when the ROM of P0 accepts an image and to recovery mode when it accepts none (R433, R435), and each later stage to the next, MEMORY leaving every frame and slice 0; after RESTORE the device is READY and the tick unit runs (R431, R445). In recovery mode it changes no stage. -/
def Obligations.startup_stages : Prop :=
  ∀ (s : State) (i : StageIn), s.glb.t0 = true → s.pwr.on = true → s.pwr.saving = false → s.glb.ready = false →
    ∃ t : State, exec (.startupStageDone i) s = .next t ∧
      (s.glb.stage = 0 → t.glb.stage = 1 ∧ t.pwr.slotId = i.slotId ∧ t.pwr.strapOpen = i.slotOpen ∧
        t.pwr.inputOk = s.pwr.permitted) ∧
      (s.glb.stage = 1 → t.glb.stage = (if (fwChoice s.glb 0 i).isSome then 2 else 8)) ∧
      (s.glb.stage = 2 → t.glb.stage = 3 ∧ ∀ a : Nat, byteAt t.mem a = 0) ∧
      (s.glb.stage = 3 → t.glb.stage = 4) ∧
      (s.glb.stage = 4 → t.glb.stage = 5 ∧ t.calCtl.pwrBase = i.pwrBase ∧ t.glb.diesP = i.portsOk) ∧
      (s.glb.stage = 5 → t.glb.stage = 6 ∧ t.ent.ok = i.classAPass) ∧
      (s.glb.stage = 6 → t.glb.stage = 7 ∧ t.glb.restore = restoreCode s) ∧
      (s.glb.stage = 7 → t.glb.ready = true ∧ t.tck.running = true) ∧
      (s.glb.stage ≠ 7 → t.glb.ready = false) ∧ (8 ≤ s.glb.stage → t.glb.stage = s.glb.stage)

/-- The ROM of each port die accepts an image exactly when its magic is right, its length at most 8 MiB, the hash of its key is the one fused into that die, its signature verifies, the digest of its code holds and its SVN is at least the die's fused one (R433); the boot record's slot is tried first. -/
def Obligations.firmware_accepts_by_rule : Prop :=
  (∀ (g : Glb) (m : FwImage) (d : Fin 2), fwAccepts g d.val m = true ↔
    (m.magic = 0x57465A57 ∧ m.length ≤ 8 * 1048576 ∧ m.keyOk.getLsbD d.val = true ∧ m.sigOk = true ∧ m.digestOk = true ∧
      (if d = 0 then g.fused0 else g.fused1) ≤ m.svn)) ∧
  (∀ (g : Glb) (i : StageIn) (d : Fin 2), fwAccepts g d.val (fwIn i g.bootSlot) = true → fwChoice g d.val i = some g.bootSlot)

/-- After every step the burned fuse counts of both dies are at least what they were (R436): nothing, not even a device reset, undoes a fuse. -/
def Obligations.fuses_never_fall : Prop :=
  ∀ s t : State, step s = .next t → s.glb.fused0 ≤ t.glb.fused0 ∧ s.glb.fused1 ≤ t.glb.fused1

/-- Where BAR0 may write: FW_COMMIT burns both dies' fuses up to the running SVN when the device is READY and no count would fall (R436), else it sets PG_ERR bit 0; FW_ACTIVATE puts FW_SEL into the boot record outside recovery mode (R434, R435). A flash read, or a program or erase that is not refused, starts while none is in progress; a refused one only sets FL_REFUSED and is counted. FLASH_OP_DONE ends the operation: an erase leaves its 64 KiB block erased (all ones, held as absence) and every other byte as it was, a read changes no flash. FLASH_WEAR_STEP in COPPICE reports whether work is left (R55). While the module is on past stage ROM, SPDM_REQUEST is counted and answered, as supported exactly for the requests of R446 and with the measurement asked for, through PCIe while the compute dies are on and on the sideband at the module's address while SMB_SCL and SMB_SDA are OK (R426, R447); PLDM_REQUEST is answered there with the sensor's value (R447); another address of the sideband gets no answer. Nothing but the output, and for SPDM a page counter, changes; before FIRMWARE neither is answered. -/
def Obligations.firmware_flash_and_sideband : Prop :=
  (  (∀ s : State, Bar0 s pgGlb → ∃ t : State, exec .fwCommit s = .next t ∧ PagesBut [pgGlb, pgLink s] s t ∧
      (s.glb.ready = true → s.glb.fused0 ≤ s.glb.svn → s.glb.fused1 ≤ s.glb.svn →
        t = { s with glb := { s.glb with fused0 := s.glb.svn, fused1 := s.glb.svn }, pgs := t.pgs }) ∧
      (s.glb.ready = false ∨ s.glb.svn < s.glb.fused0 ∨ s.glb.svn < s.glb.fused1 →
        t = { s with pgs := t.pgs } ∧ (hdrAt t pgGlb).err.getLsbD 0 = true)) ∧
  (∀ s : State, Bar0 s pgGlb → s.glb.stage ≠ 8 → ∃ t : State, exec .fwActivate s = .next t ∧ PagesBut [pgGlb, pgLink s] s t ∧
      t = { s with glb := { s.glb with bootSlot := s.glb.fwSel }, pgs := t.pgs }) ∧
  (∀ s : State, Bar0 s pgCfg → s.glb.flOp = none →
    (∃ t : State, exec .flashRead s = .next t ∧ t = { s with glb := { s.glb with flOp := some 1 }, pgs := t.pgs }) ∧
    (flashRefused s.glb = false → (∃ t : State, exec .flashProgram s = .next t ∧
        t = { s with glb := { s.glb with flOp := some 2 }, pgs := t.pgs }) ∧
      (∃ t : State, exec .flashErase s = .next t ∧ t = { s with glb := { s.glb with flOp := some 3 }, pgs := t.pgs })) ∧
    (flashRefused s.glb = true → (∃ t : State, exec .flashProgram s = .next t ∧
        t = { s with glb := { s.glb with flRefused := true }, pgs := t.pgs }) ∧
      (∃ t : State, exec .flashErase s = .next t ∧ t = { s with glb := { s.glb with flRefused := true }, pgs := t.pgs }))) ∧
  (∀ (s : State) (op : BitVec 2), s.glb.flOp = some op → ∃ t : State, exec .flashOpDone s = .next t ∧ t.glb.flOp = none ∧
      t = { s with glb := t.glb, pgs := t.pgs } ∧ PagesBut [pgCfg] s t ∧ (op = 1 → t.glb.flash = s.glb.flash) ∧
      (op = 3 → ∀ a : Nat, byteAt t.glb.flash a =
        if a / 65536 = flashAddr s.glb / 65536 then 0 else byteAt s.glb.flash a)) ∧
  (∀ (s : State) (fin : Bool), s.tck.phase = .coppice → ∃ t : State, exec (.flashWearStep fin) s = .next t ∧
      t = { s with tck := { s.tck with bgFlash := !fin }, pgs := t.pgs })) ∧
(  (∀ (s : State) (q : SpdmReq) (via : Option (BitVec 7)), firmwareServes s = true → (via = none → s.pwr.computeOn = true) →
    (∀ a, via = some a → lineOk s 6 = true ∧ lineOk s 7 = true ∧ a = 0x60 + s.pwr.slotId.setWidth 7) →
    ∃ t : State, exec (.spdmRequest q via) s = .next t ∧
      t = { s with out := s.out ++ [.spdm q (spdmSupported q) (spdmData s.glb q)], pgs := t.pgs } ∧ PagesBut [pgCfg] s t) ∧
  (∀ (s : State) (q : PldmSensor), firmwareServes s = true → lineOk s 6 = true → lineOk s 7 = true →
    exec (.pldmRequest q (0x60 + s.pwr.slotId.setWidth 7)) s = .next { s with out := s.out ++ [.pldm q (pldmValue s q)] }) ∧
  (∀ (s : State) (q : SpdmReq) (p : PldmSensor) (via : Option (BitVec 7)) (a : BitVec 7), firmwareServes s = false →
    exec (.spdmRequest q via) s = .next s ∧ exec (.pldmRequest p a) s = .next s) ∧
  (∀ (s : State) (q : SpdmReq) (p : PldmSensor) (a : BitVec 7), a ≠ 0x60 + s.pwr.slotId.setWidth 7 →
    exec (.spdmRequest q (some a)) s = .next s ∧ exec (.pldmRequest p a) s = .next s))

/-- On a page that is present and serves, outside a save: PAGE_LOCK sets the lock as asked, locked or not; on an unlocked page PG_CTL_FREEZE sets FREEZE as asked, and PG_CTL_CLEAR, on a page whose counters are cumulative, waits for the boundary with FREEZE kept (R452, R457). A 4-byte REGISTER_WRITE by the PF, with room in its queue, gives PG_ERRMSK the value written, and clears exactly the bits of PG_ERR written as 1 (R454, R455). Only headers of the page and of the serving link change. From a save trigger on a BAR0 write changes nothing but the receive counter of the link (R477). A BAR0 write command to a locked page that serves changes nothing but page headers, and sets PG_ERR bit 30 of that page (R457): stated of the tick unit's four register writes, START, STEP and the calendar, margin and voltage writes. A locked page refuses a REGISTER_WRITE to any word but PG_OWN alike. -/
def Obligations.page_headers_and_locks : Prop :=
  (  ∀ (s : State) (addr : BitVec 28), s.pwr.saving = false → pageServes s (addr.toNat / 4096) = true →
    pageOf (addr.toNat / 4096) ≠ .absent →
    let pg := addr.toNat / 4096
    (∀ on : Bool, ∃ t : State, exec (.pageLock addr on) s = .next t ∧ t = { s with pgs := t.pgs } ∧ PagesBut [pg] s t ∧
      (hdrAt t pg).lock = on ∧ (hdrAt t pg).err = (hdrAt s pg).err) ∧
    (locked s pg = false →
      (∀ on : Bool, ∃ t : State, exec (.pgCtlFreeze addr on) s = .next t ∧ t = { s with pgs := t.pgs } ∧ PagesBut [pg] s t ∧
        (hdrAt t pg).freeze = on ∧ (hdrAt t pg).clearPend = (hdrAt s pg).clearPend) ∧
      (tickCnt pg = false → ∃ t : State, exec (.pgCtlClear addr) s = .next t ∧ t = { s with pgs := t.pgs } ∧ PagesBut [pg] s t ∧
        (hdrAt t pg).freeze = (hdrAt s pg).freeze ∧ (hdrAt t pg).clearPend = true) ∧
      (s.pwr.on = true → s.pwr.computeOn = true → queueFull s 0 = false → ∀ v : Word64,
        (addr.toNat % 4096 = 0x14 → ∃ t : State, exec (.registerWrite 0 addr v 4) s = .next t ∧ t = { s with pgs := t.pgs } ∧
          PagesBut [pg, pgLink s] s t ∧ (hdrAt t pg).errMsk = v.setWidth 32) ∧
        (addr.toNat % 4096 = 0x10 → ∃ t : State, exec (.registerWrite 0 addr v 4) s = .next t ∧ t = { s with pgs := t.pgs } ∧
          PagesBut [pg, pgLink s] s t ∧
          (hdrAt t pg).err = (hdrAt s pg).err &&& ~~~(v.setWidth 32 &&& 0xC000FFFF))))) ∧
(  (∀ (s : State) (v : Word) (n : Nat) (cal : CalId) (w : Fin 256) (d : Fin 12) (hi : Bool), s.pwr.saving = true →
    ∀ c ∈ [Instr.tckPeriodWrite v, .tckCfgWrite v, .tckT0Write hi v, .tckInofsWrite v, .start n, .step n, .calTableWrite cal w v,
      .calSwap cal, .marginWrite v, .avsVenvWrite d v, .supForce, .failoverForce, .pwrShutdown, .fwCommit, .fwActivate,
      .ptpCfgWrite v], exec c s = .next s) ∧
  (∀ (s : State) (f : Fn) (addr : BitVec 28) (v : Word64) (size : Fin 9), s.pwr.saving = true → queueFull s f.val = false →
    ∃ t : State, exec (.registerWrite f addr v size) s = .next t ∧ PagesBut [pgLink s] s t ∧
      (sizeOk addr.toNat size.val = true → t = { s with pgs := t.pgs })) ∧
  (∀ (s : State) (v : Word) (n : Nat) (hi : Bool), s.pwr.saving = false → s.glb.ready = true → locked s pgTck = true →
    ∀ c ∈ [Instr.tckPeriodWrite v, .tckCfgWrite v, .tckT0Write hi v, .tckInofsWrite v, .start n, .step n],
      ∃ t : State, exec c s = .next t ∧ t = { s with pgs := t.pgs } ∧ (hdrAt t pgTck).err.getLsbD 30 = true ∧
        PagesBut [pgTck, pgLink s] s t) ∧
  (∀ (s : State) (addr : BitVec 28) (v : Word64), s.pwr.saving = false → s.pwr.on = true → s.pwr.computeOn = true →
    queueFull s 0 = false → addr.toNat % 4 = 0 → addr.toNat % 4096 ≠ 0x1C → pageServes s (addr.toNat / 4096) = true →
    pageOf (addr.toNat / 4096) ≠ .absent → locked s (addr.toNat / 4096) = true →
    ∃ t : State, exec (.registerWrite 0 addr v 4) s = .next t ∧ t = { s with pgs := t.pgs } ∧
      (hdrAt t (addr.toNat / 4096)).err.getLsbD 30 = true))

/-- An aligned 4-byte read by the PF of a page that serves, with room in its queue and no latched half, answers what the word reads as: before the tick unit runs it leaves at once, afterwards it waits as one planned completion on the serving link's calendar (R461, R465). With the queue full the read is answered with Completer Abort and counted (R465). A word that GLB_ID names reads as the device's identity. RC_FIELD_READ is such a read, and reading LOST on the ERR page clears it (R10). -/
def Obligations.register_reads : Prop :=
  (∀ (s : State) (addr : BitVec 28), s.pwr.on = true → s.pwr.computeOn = true → queueFull s 0 = false → addr.toNat % 4 = 0 →
    pageServes s (addr.toNat / 4096) = true → mget s.hiLatch none (fnKey 0 addr.toNat) = none →
    let w := readWord (tlps s 0 1) (addr.toNat / 4096) (addr.toNat % 4096)
    ∃ t : State, exec (.registerRead 0 addr 4) s = .next t ∧
      (s.tck.running = false → t.out = s.out ++ [.readValue 0 addr.toNat [w]]) ∧
      (s.tck.running = true → t.out = s.out ∧ (calAt t (pcieCal s 1)).queue = (calAt s (pcieCal s 1)).queue ++
        [{ owner := 0, kind := .readCpl 0 addr.toNat [w], left := 4, planned := true }])) ∧
  (∀ (s : State) (f : Fn) (addr : BitVec 28) (size : Fin 9), s.pwr.on = true → s.pwr.computeOn = true → queueFull s f.val = true →
    ∃ t : State, exec (.registerRead f addr size) s = .next t ∧ t.out = s.out ++ [.completerAbort f.val addr.toNat] ∧
      (pciAt t (serving s)).regDrop = (pciAt s (serving s)).regDrop + 1 ∧ t.mem = s.mem ∧ t.insts = s.insts) ∧
  (∀ s : State, readWord s 0 0x40 = 0x31355A57 ∧ readWord s 0 0x44 = 0x00412D32) ∧
  (∀ (s : State) (f : Fn) (addr : BitVec 28), exec (.rcFieldRead f addr) s = exec (.registerRead f addr 4) s) ∧
  (∀ s : State, s.pwr.on = true → s.pwr.computeOn = true → queueFull s 0 = false → s.glb.ready = true →
    mget s.hiLatch none (fnKey 0 0x604C) = none →
    ∃ t : State, exec (.rcFieldRead 0 0x604C) s = .next t ∧ t.errs = { s.errs with lost := 0 } ∧ t.tck = s.tck)

/-- Each of the 32 registers of a context is a 32-bit value and each of its 8 predicates one bit. g0 reads 0 and p0 reads 1 in every context; a write to either changes nothing; a write to any other register or predicate makes it read the value written and leaves every other one as it was. -/
def Obligations.registers_and_predicates : Prop :=
  ∀ (x : Ctx) (r : Fin 32) (v : Word) (n : Nat) (p : Fin 8) (b : Bool),
    getReg x 0 = 0 ∧ getPred x 0 = true ∧ putReg x 0 v n = x ∧ putPred x 0 b = x ∧
    (r ≠ 0 → getReg (putReg x r.val v n) r.val = v) ∧ (p ≠ 0 → getPred (putPred x p.val b) p.val = b) ∧
    (∀ q : Fin 32, q ≠ r → getReg (putReg x r.val v n) q.val = getReg x q.val) ∧
    (∀ q : Fin 8, q ≠ p → getPred (putPred x p.val b) q.val = getPred x q.val)

/-- When ADD, SUB, AND, OR, XOR, SHL, SHR, SRA, MUL, MIN, MAX, ADDI, ANDI, ORI, SHLI, SHRI, LUI, SEL or SRD is what a sprig issues next and its predicate is on, it issues in the cycle its sources allow (R163) and rd reads the table's result, modulo 2^32, usable L cycles later; g0 stays 0. NOP changes no register. The frame: no other register, no predicate, queue, memory, context, sprig or cluster changes. -/
def Obligations.integer_instructions : Prop :=
  ∀ (s : State) (c : Cl) (p : Sp),
    let x := activeCtx s c.val p.val
    (∀ f : FmtA, predOn x f.pred f.pneg = true →
      let a := getReg x f.rs1.val
      let b := getReg x f.rs2.val
      ∀ q ∈ ([(Instr.add c p f, 0x01, 1, a + b), (Instr.sub c p f, 0x02, 1, a - b), (Instr.and c p f, 0x03, 1, a &&& b),
          (Instr.or c p f, 0x04, 1, a ||| b), (Instr.xor c p f, 0x05, 1, a ^^^ b),
          (Instr.shl c p f, 0x06, 1, BitVec.ofNat 32 (a.toNat * 2 ^ (b.toNat % 32))),
          (Instr.shr c p f, 0x07, 1, BitVec.ofNat 32 (a.toNat / 2 ^ (b.toNat % 32))),
          (Instr.sra c p f, 0x08, 1, BitVec.ofInt 32 (a.toInt / 2 ^ (b.toNat % 32))),
          (Instr.mul c p f, 0x09, 3, BitVec.ofNat 32 (a.toNat * b.toNat)),
          (Instr.min c p f, 0x0B, 1, if a.toInt ≤ b.toInt then a else b),
          (Instr.max c p f, 0x0C, 1, if a.toInt ≤ b.toInt then b else a),
          (Instr.sel c p f, 0x1B, 1, if getPred x (f.fn.toNat % 8) then a else b)] : List (Instr × Nat × Nat × Word)),
        RegResult q.1 s c.val p.val (wordA q.2.1 f) [f.rs1.val, f.rs2.val] f.rd.val q.2.2.1 q.2.2.2) ∧
    (∀ f : FmtB, predOn x f.pred f.pneg = true →
      let a := getReg x f.rs1.val
      let i : Word := BitVec.ofInt 32 f.imm.toInt
      ∀ q ∈ ([(Instr.addi c p f, 0x10, a + i), (Instr.andi c p f, 0x11, a &&& i), (Instr.ori c p f, 0x12, a ||| i),
          (Instr.shli c p f, 0x14, BitVec.ofNat 32 (a.toNat * 2 ^ (f.imm.toNat % 32))),
          (Instr.shri c p f, 0x15, BitVec.ofNat 32 (a.toNat / 2 ^ (f.imm.toNat % 32)))] : List (Instr × Nat × Word)),
        RegResult q.1 s c.val p.val (wordB q.2.1 f) [f.rs1.val] f.rd.val 1 q.2.2) ∧
    (∀ f : FmtC, predOn x f.pred f.pneg = true →
      RegResult (.lui c p f) s c.val p.val (wordC 0x16 f) [] (f.imm.toNat / 2 ^ 17) 1
        (BitVec.ofNat 32 (f.imm.toNat % 65536 * 65536))) ∧
    (∀ f : FmtC, OffResult (.nop c p f) s c.val p.val (wordC 0x00 f) [] false none) ∧
    (∀ f : FmtA, predOn x f.pred f.pneg = true →
      let h := (clusterAt s c.val).owner
      ∀ q ∈ ([(0, BitVec.ofNat 32 p.val), (1, BitVec.ofNat 32 (localId (instAt s h) c.val)),
          (2, BitVec.ofNat 32 ((instAt s h).w + (instAt s h).h * 65536)),
          (3, BitVec.ofNat 32 (sprigOf s c.val p.val).active.val),
          (4, BitVec.ofNat 32 (nsToCycles 1000 s.avsDev.grade + issueCycle s c.val p.val [] false)),
          (5, (instAt s h).htick.setWidth 32), (6, s.tck.devTick.setWidth 32)] : List (Nat × Word)),
        f.fn.toNat % 8 = q.1 → RegResult (.srd c p f) s c.val p.val (wordA 0x3C f) [] f.rd.val 1 q.2)

/-- With the predicate on: CMP and CMPI write p[RD mod 8] with the condition their field names, PLOG with the operation FN names; FADD, FSUB, FMUL, FMA, FDIV, FSQRT and FCVT write rd with the rounded result, usable 4, 4, 4, 4, 8, 8 and 2 cycles later, and OR their flags into SPG_FLAGS; FDIV and FSQRT occupy the divide unit for 8 cycles (R163). A NaN operand gives the canonical NaN with INVALID, a finite nonzero value over 0 an infinity with DIVZ, a comparison with a NaN is false with INVALID (R167). -/
def Obligations.predicate_and_float_instructions : Prop :=
  (∀ (s : State) (c : Cl) (p : Sp),
    let x := activeCtx s c.val p.val
    (∀ f : FmtA, predOn x f.pred f.pneg = true →
      let a := getReg x f.rs1.val
      let b := getReg x f.rs2.val
      (∀ q ∈ ([(0, decide (a = b)), (1, decide (a ≠ b)), (2, decide (a.toInt < b.toInt)), (3, decide (b.toInt ≤ a.toInt)),
          (4, decide (a.toNat < b.toNat)), (5, decide (b.toNat ≤ a.toNat))] : List (Nat × Bool)),
        f.fn.toNat % 8 = q.1 →
        PredResult (.cmp c p f) s c.val p.val (wordA 0x18 f) [f.rs1.val, f.rs2.val] f.rd.val (q.2, 0)) ∧
      (6 ≤ f.fn.toNat % 8 →
        PredResult (.cmp c p f) s c.val p.val (wordA 0x18 f) [f.rs1.val, f.rs2.val] f.rd.val
          (fpCmp (decide (f.fn.toNat % 8 = 7)) a b)) ∧
      (∀ q ∈ ([(0, getPred x f.rs1.val && getPred x f.rs2.val), (1, getPred x f.rs1.val || getPred x f.rs2.val),
          (2, getPred x f.rs1.val != getPred x f.rs2.val), (3, getPred x f.rs1.val && !(getPred x f.rs2.val))] : List (Nat × Bool)),
        f.fn.toNat % 4 = q.1 →
        PredResult (.plog c p f) s c.val p.val (wordA 0x1A f) [] f.rd.val (q.2, 0)) ∧
      (∀ q ∈ ([(Instr.fadd c p f, 0x20, 4, false, [f.rs1.val, f.rs2.val], fpAdd a b),
          (Instr.fsub c p f, 0x21, 4, false, [f.rs1.val, f.rs2.val], fpAdd a (b ^^^ 0x80000000)),
          (Instr.fmul c p f, 0x22, 4, false, [f.rs1.val, f.rs2.val], fpMul a b),
          (Instr.fma c p f, 0x23, 4, false, [f.rd.val, f.rs1.val, f.rs2.val], fpFma (getReg x f.rd.val) a b),
          (Instr.fdiv c p f, 0x24, 8, true, [f.rs1.val, f.rs2.val], fpDiv a b),
          (Instr.fsqrt c p f, 0x25, 8, true, [f.rs1.val], fpSqrt a),
          (Instr.fcvt c p f, 0x26, 2, false, [f.rs1.val], fpCvt f.fn.toNat a)] :
            List (Instr × Nat × Nat × Bool × List Nat × (Word × BitVec 4))),
        FpResult q.1 s c.val p.val (wordA q.2.1 f) q.2.2.2.2.1 q.2.2.2.1 f.rd.val q.2.2.1 q.2.2.2.2.2)) ∧
    (∀ f : FmtB, predOn x f.pred f.pneg = true →
      let a := getReg x f.rs1.val
      ∀ q ∈ ([(0, decide (a.toInt = f.imm.toInt)), (1, decide (a.toInt ≠ f.imm.toInt)), (2, decide (a.toInt < f.imm.toInt)),
          (3, decide (f.imm.toInt ≤ a.toInt))] : List (Nat × Bool)),
        f.rd.val / 8 = q.1 → PredResult (.cmpi c p f) s c.val p.val (wordB 0x19 f) [f.rs1.val] f.rd.val (q.2, 0))) ∧
  (∀ d a b : Word, isNan (f32 a) = true →
    fpAdd a b = (0x7FC00000, 1) ∧ fpAdd b a = (0x7FC00000, 1) ∧ fpMul a b = (0x7FC00000, 1) ∧ fpMul b a = (0x7FC00000, 1) ∧
    fpDiv a b = (0x7FC00000, 1) ∧ fpDiv b a = (0x7FC00000, 1) ∧ fpSqrt a = (0x7FC00000, 1) ∧
    fpFma d a b = (0x7FC00000, 1) ∧ fpFma a d b = (0x7FC00000, 1) ∧
    fpCmp false a b = (false, 1) ∧ fpCmp true a b = (false, 1) ∧ fpCmp false b a = (false, 1) ∧ fpCmp true b a = (false, 1) ∧
    fpCvt 0 a = (0, 1) ∧ fpCvt 2 a = (0x7FC0, 1) ∧ fpCvt 3 a = (0x7E00, 1)) ∧
  (∀ (a b : Word) (n : Bool) (m : Nat) (e : Int), f32 a = .fin n m e → m ≠ 0 → isZero (f32 b) = true →
    (fpDiv a b).2 = 2 ∧ isInf (f32 (fpDiv a b).1) = true)

/-- PRED, inverted if PNEG = 1, decides whether an instruction executes. With it 0, every instruction that can carry a predicate issues in the same cycle as with it 1, after the same waits for its sources, for the divide unit and, for LDC and STC, for the bank, which it then takes for that cycle; the sprig counts the same busy cycle and stalls, and no register, predicate, queue, data memory or cluster store and no other cluster changes. A reader of its destination waits the same L cycles as if it had been written, for waits depend on the instruction sequence alone (R163). -/
def Obligations.predicated_off_instructions : Prop :=
  ∀ (s : State) (c : Cl) (p : Sp),
    let x := activeCtx s c.val p.val
    (∀ (r : Fin 8) (n : Bool), predOn x r n = (if n then !(getPred x r.val) else getPred x r.val)) ∧
    (∀ f : FmtA, predOn x f.pred f.pneg = false →
      let h := fun lat : Nat => some (f.rd.val, lat)
      (∀ q ∈ ([(Instr.add c p f, 0x01, h 1), (Instr.sub c p f, 0x02, h 1), (Instr.and c p f, 0x03, h 1), (Instr.or c p f, 0x04, h 1),
          (Instr.xor c p f, 0x05, h 1), (Instr.shl c p f, 0x06, h 1), (Instr.shr c p f, 0x07, h 1), (Instr.sra c p f, 0x08, h 1),
          (Instr.mul c p f, 0x09, h 3), (Instr.min c p f, 0x0B, h 1), (Instr.max c p f, 0x0C, h 1), (Instr.cmp c p f, 0x18, none),
          (Instr.sel c p f, 0x1B, h 1), (Instr.fadd c p f, 0x20, h 4), (Instr.fsub c p f, 0x21, h 4),
          (Instr.fmul c p f, 0x22, h 4)] : List (Instr × Nat × Option (Nat × Nat))),
        OffResult q.1 s c.val p.val (wordA q.2.1 f) [f.rs1.val, f.rs2.val] false q.2.2) ∧
      OffResult (.plog c p f) s c.val p.val (wordA 0x1A f) [] false none ∧
      OffResult (.fma c p f) s c.val p.val (wordA 0x23 f) [f.rd.val, f.rs1.val, f.rs2.val] false (h 4) ∧
      OffResult (.fdiv c p f) s c.val p.val (wordA 0x24 f) [f.rs1.val, f.rs2.val] true (h 8) ∧
      OffResult (.fsqrt c p f) s c.val p.val (wordA 0x25 f) [f.rs1.val] true (h 8) ∧
      OffResult (.fcvt c p f) s c.val p.val (wordA 0x26 f) [f.rs1.val] false (h 2) ∧
      OffResult (.srd c p f) s c.val p.val (wordA 0x3C f) [] false (h 1)) ∧
    (∀ f : FmtB, predOn x f.pred f.pneg = false →
      let h := fun lat : Nat => some (f.rd.val, lat)
      (∀ q ∈ ([(Instr.addi c p f, 0x10, h 1), (Instr.andi c p f, 0x11, h 1), (Instr.ori c p f, 0x12, h 1), (Instr.shli c p f, 0x14, h 1),
          (Instr.shri c p f, 0x15, h 1), (Instr.cmpi c p f, 0x19, none), (Instr.ld c p f, 0x28, h 2), (Instr.ldh c p f, 0x2A, h 2)] :
            List (Instr × Nat × Option (Nat × Nat))),
        OffResult q.1 s c.val p.val (wordB q.2.1 f) [f.rs1.val] false q.2.2) ∧
      (∀ q ∈ ([(Instr.st c p f, 0x29), (Instr.sth c p f, 0x2B)] : List (Instr × Nat)),
        OffResult q.1 s c.val p.val (wordB q.2 f) [f.rs1.val, f.rd.val] false none)) ∧
    (∀ f : FmtB,
      ∀ q ∈ ([(Instr.ldc c p f, 0x2C, [f.rs1.val], true), (Instr.stc c p f, 0x2D, [f.rs1.val, f.rd.val], false)] :
          List (Instr × Nat × List Nat × Bool)),
        let m := storeReady s c.val p.val (wordB q.2.1 f) q.2.2.1
        let y := activeCtx m c.val p.val
        let u := issueCycle m c.val p.val q.2.2.1 false
        let ca := (getReg y f.rs1.val + 4 * BitVec.ofInt 32 f.imm.toInt).toNat % 1048576 / 4 * 4
        predOn y f.pred f.pneg = false → StoreTurn m c.val p.val u ca → Issues m c.val p.val (wordB q.2.1 f) q.2.2.1 false →
        ∃ t : State, exec q.1 s = .next t ∧
          Issued m t c.val p.val u { clusterAt m c.val with banks := (clusterAt t c.val).banks } ∧
          BankTaken (clusterAt m c.val) (clusterAt t c.val) u ca ∧ SprigStores m t c.val p.val ∧
          (if q.2.2.2 then RegHeld y (activeCtx t c.val p.val) f.rd.val (u + 6) else CtxKept y (activeCtx t c.val p.val))) ∧
    (∀ f : FmtC, predOn x f.pred f.pneg = false →
      OffResult (.lui c p f) s c.val p.val (wordC 0x16 f) [] false (some (f.imm.toNat / 2 ^ 17, 1)))

/-- With the predicate on: LD and LDH write rd with the little-endian word or zero-extended halfword at (rs1 + imm) modulo 2,048, aligned down to the width, usable 2 cycles later; ST and STH store rd there and change no other byte of data memory. LDC and STC address a word of the cluster store at (rs1 + 4 × imm) modulo 1 MiB, aligned down to 4, in the state that the hedge's mesh has reached by that cycle (R175): in its turn, and with the bank free of the matrix engine and of every other access, LDC writes rd with the word as the store holds it in the cycle, usable 6 cycles later, and STC puts its word on its way, seen by every access from 6 cycles after its issue on and by none in the cycle itself; with the bank taken they wait one cycle, a port stall. What accesses see of writes on their way: one that is sure by the access is seen, one that begins later is not. A store changes no register. -/
def Obligations.loads_and_stores : Prop :=
  (∀ (s : State) (c : Cl) (p : Sp) (f : FmtB),
    let x := activeCtx s c.val p.val
    let i : Word := BitVec.ofInt 32 f.imm.toInt
    let da := fun n : Nat => (getReg x f.rs1.val + i).toNat % 2048 - (getReg x f.rs1.val + i).toNat % 2048 % n
    let dm := (sprigOf s c.val p.val).dmem
    let ls := [f.rs1.val, f.rd.val]
    predOn x f.pred f.pneg = true →
    RegResult (.ld c p f) s c.val p.val (wordB 0x28 f) [f.rs1.val] f.rd.val 2 (BitVec.ofNat 32 (readLe dm (da 4) 4)) ∧
    RegResult (.ldh c p f) s c.val p.val (wordB 0x2A f) [f.rs1.val] f.rd.val 2 (BitVec.ofNat 32 (readLe dm (da 2) 2)) ∧
    (∀ q ∈ ([(Instr.st c p f, 0x29, 4), (Instr.sth c p f, 0x2B, 2)] : List (Instr × Nat × Nat)),
      Issues s c.val p.val (wordB q.2.1 f) ls false →
      ∃ t : State, exec q.1 s = .next t ∧ Issued s t c.val p.val (issueCycle s c.val p.val ls false) (clusterAt s c.val) ∧
        CtxKept x (activeCtx t c.val p.val) ∧ (sprigOf t c.val p.val).lfsr = (sprigOf s c.val p.val).lfsr ∧
        Stored dm (sprigOf t c.val p.val).dmem (da q.2.2) (leBytes q.2.2 (getReg x f.rd.val).toNat))) ∧
  (∀ (s : State) (c : Cl) (p : Sp) (f : FmtB),
    let i : Word := BitVec.ofInt 32 f.imm.toInt
    let word := fun y : Ctx => (getReg y f.rs1.val + 4 * i).toNat % 1048576 - (getReg y f.rs1.val + 4 * i).toNat % 1048576 % 4
    (let rs := [f.rs1.val]
     let m := storeReady s c.val p.val (wordB 0x2C f) rs
     let y := activeCtx m c.val p.val
     let u := issueCycle m c.val p.val rs false
     let seen := storeSeen (clusterAt m c.val) u u m.fresh
     predOn y f.pred f.pneg = true → Issues m c.val p.val (wordB 0x2C f) rs false → StoreTurn m c.val p.val u (word y) →
      mget (clusterAt m c.val).poison false (word y / 64) = false →
      ∃ t : State, exec (.ldc c p f) s = .next t ∧ t.fresh = m.fresh + seen.2 ∧
        Issued m { t with fresh := m.fresh } c.val p.val u { clusterAt m c.val with banks := (clusterAt t c.val).banks } ∧
        BankTaken (clusterAt m c.val) (clusterAt t c.val) u (word y) ∧ SprigStores m t c.val p.val ∧
        RegPut y (activeCtx t c.val p.val) f.rd.val (BitVec.ofNat 32 (readLe seen.1 (word y) 4)) (u + 6)) ∧
    (let rs := [f.rs1.val, f.rd.val]
     let m := storeReady s c.val p.val (wordB 0x2D f) rs
     let y := activeCtx m c.val p.val
     let u := issueCycle m c.val p.val rs false
     predOn y f.pred f.pneg = true → Issues m c.val p.val (wordB 0x2D f) rs false → StoreTurn m c.val p.val u (word y) →
      ∃ t : State, exec (.stc c p f) s = .next t ∧
        Issued m t c.val p.val u { clusterAt m c.val with
          banks := (clusterAt t c.val).banks
          landing := landIn { lo := u + 1, hi := u + 6, addr := word y, bytes := leBytes 4 (getReg y f.rd.val).toNat }
            (clusterAt m c.val).landing } ∧
        BankTaken (clusterAt m c.val) (clusterAt t c.val) u (word y) ∧ SprigStores m t c.val p.val ∧
        CtxKept y (activeCtx t c.val p.val)) ∧
    (∀ q ∈ ([(Instr.ldc c p f, 0x2C, [f.rs1.val]), (Instr.stc c p f, 0x2D, [f.rs1.val, f.rd.val])] :
        List (Instr × Nat × List Nat)),
      let m := storeReady s c.val p.val (wordB q.2.1 f) q.2.2
      let u := issueCycle m c.val p.val q.2.2 false
      let b := bankOf (word (activeCtx m c.val p.val))
      Issues m c.val p.val (wordB q.2.1 f) q.2.2 false → isTurn (clusterAt m c.val) p.val u = true →
      (meBusy (clusterAt m c.val) u b = true ∨ mget (clusterAt m c.val).banks 0 (u * 16 + b) ≠ 0) →
      ∃ t : State, exec q.1 s = .next t ∧ t = { m with clusters := t.clusters } ∧ ClustersBut c.val m t ∧
        (clusterAt t c.val).banks = (clusterAt m c.val).banks ∧ (clusterAt t c.val).landing = (clusterAt m c.val).landing ∧
        (sprigOf t c.val p.val).cycle = u + 1 ∧ (sprigOf t c.val p.val).cnt.port = (sprigOf m c.val p.val).cnt.port + 1 ∧
        activeCtx t c.val p.val = activeCtx m c.val p.val)) ∧
  (∀ (k : Cluster) (lo hi n : Nat),
    (lo ≤ hi → (∀ e ∈ k.landing, hi < e.lo ∧ e.lo ≤ e.hi) → storeSeen k lo hi n = (k.store, 0)) ∧
    ((∀ e ∈ k.landing, e.hi ≤ lo) →
      storeSeen k lo hi n = (k.landing.foldl (fun m e => writeBytes m e.addr e.bytes) k.store, 0)))

/-- In a sprig's turn: PUSH with a credit appends rs1 to the opposite queue of the neighbour in the same context, poppable 2 cycles after its issue (R170, R171); POP of a poppable head writes it to rd, takes it out and owes a credit for a neighbour queue, back 1 cycle later; PEEK writes it and keeps it; without a credit, or without a poppable head, the instruction waits one cycle, a queue stall (R171). A credit on its way back counts as held by the queue until its cycle. While a sprig that comes first has not reached the cycle, nothing beyond the sources' wait happens. QUEUE_ENTRY_ARRIVAL moves the oldest pushed entry to the queue's end and counts it; QUEUE_CREDIT_RETURN gives the oldest credit back once the sender has reached its cycle. -/
def Obligations.queue_instructions : Prop :=
  (∀ (s : State) (c : Cl) (p : Sp) (f : FmtA),
    let a := (sprigOf s c.val p.val).active
    let x := activeCtx s c.val p.val
    let k := clusterAt s c.val
    (∀ n : Nat, neighbour p.val (f.fn.toNat % 4) = some n → Issues s c.val p.val (wordA 0x30 f) [f.rs1.val] false →
      let u := issueCycle s c.val p.val [f.rs1.val] false
      let d := (f.fn.toNat % 4 + 2) % 4
      let q := queueAt (ctxAt (sprigOf s c.val n) a) d
      let held := q.fly.length + q.q.length + (q.owed.filter fun r => decide (u < r)).length
      isTurn k p.val u = true →
      (held < q.depth →
        ∃ t : State, exec (.push c p f) s = .next t ∧ t = { s with clusters := t.clusters } ∧ ClustersBut c.val s t ∧
          CtxKept x (activeCtx t c.val p.val) ∧ SprigStores s t c.val p.val ∧ (sprigOf t c.val p.val).cycle = u + 1 ∧
          ctxAt (sprigOf t c.val n) a =
            setQueue (ctxAt (sprigOf s c.val n) a) d { q with fly := q.fly ++ [(getReg x f.rs1.val, u + 2)] } ∧
          (∀ m : Nat, m ≠ n → m ≠ p.val → sprigOf t c.val m = sprigOf s c.val m)) ∧
      (q.depth ≤ held →
        ∃ t : State, exec (.push c p f) s = .next t ∧ t = { s with clusters := t.clusters } ∧ ClustersBut c.val s t ∧
          (sprigOf t c.val p.val).cycle = u + 1 ∧ (sprigOf t c.val p.val).cnt.q = (sprigOf s c.val p.val).cnt.q + 1 ∧
          (∀ b, ctxAt (sprigOf t c.val p.val) b = ctxAt (sprigOf s c.val p.val) b) ∧
          (∀ m : Nat, m ≠ p.val → sprigOf t c.val m = sprigOf s c.val m))) ∧
    (let u := issueCycle s c.val p.val [] false
     let n := f.fn.toNat % 8
     let q := queueAt x n
     isTurn k p.val u = true →
     (∀ (v : Word) (at0 : Nat) (rest : List (Word × Nat)), q.q = (v, at0) :: rest → at0 ≤ u →
      (Issues s c.val p.val (wordA 0x31 f) [] false →
        ∃ t : State, exec (.pop c p f) s = .next t ∧ Issued s t c.val p.val u k ∧ SprigStores s t c.val p.val ∧
          RegPut (setQueue x n { q with q := rest, owed := if n < 4 then q.owed ++ [u + 1] else q.owed }) (activeCtx t c.val p.val)
            f.rd.val v (u + 1)) ∧
      (Issues s c.val p.val (wordA 0x32 f) [] false →
        ∃ t : State, exec (.peek c p f) s = .next t ∧ Issued s t c.val p.val u k ∧ SprigStores s t c.val p.val ∧
          RegPut x (activeCtx t c.val p.val) f.rd.val v (u + 1))) ∧
     (∀ i ∈ ([(Instr.pop c p f, 0x31), (Instr.peek c p f, 0x32)] : List (Instr × Nat)),
      (∀ e, q.q.head? = some e → u < e.2) → Issues s c.val p.val (wordA i.2 f) [] false →
      ∃ t : State, exec i.1 s = .next t ∧ t = { s with clusters := t.clusters } ∧ ClustersBut c.val s t ∧
        (sprigOf t c.val p.val).cycle = u + 1 ∧ (sprigOf t c.val p.val).cnt.q = (sprigOf s c.val p.val).cnt.q + 1 ∧
        (∀ b, ctxAt (sprigOf t c.val p.val) b = ctxAt (sprigOf s c.val p.val) b))) ∧
    (∀ i ∈ ([(Instr.push c p f, 0x30, [f.rs1.val]), (Instr.pop c p f, 0x31, []), (Instr.peek c p f, 0x32, [])] :
        List (Instr × Nat × List Nat)),
      let u := issueCycle s c.val p.val i.2.2 false
      Issues s c.val p.val (wordA i.2.1 f) i.2.2 false → isTurn k p.val u = false →
      exec i.1 s = .next (modCluster s c.val fun k => modSprig k p.val fun y => stallDep y u))) ∧
  (∀ (s : State) (c : Cl) (p : Sp) (x : Cx) (k : Fin 5) (e : Word × Nat) (rest : List (Word × Nat)),
    let q := queueAt (ctxAt (sprigOf s c.val p.val) x) k.val
    q.fly = e :: rest →
    ∃ t : State, exec (.queueEntryArrival c p x k) s = .next t ∧ t = { s with clusters := t.clusters } ∧ ClustersBut c.val s t ∧
      queueAt (ctxAt (sprigOf t c.val p.val) x) k.val =
        { q with fly := rest, q := q.q ++ [e], enq := q.enq + 1, peak := max q.peak (q.q.length + 1) } ∧
      (∀ j : Fin 5, j ≠ k → queueAt (ctxAt (sprigOf t c.val p.val) x) j.val = queueAt (ctxAt (sprigOf s c.val p.val) x) j.val) ∧
      (∀ m : Nat, m ≠ p.val → sprigOf t c.val m = sprigOf s c.val m)) ∧
  (∀ (s : State) (c : Cl) (p : Sp) (x : Cx) (k : Fin 5) (n r : Nat) (rest : List Nat),
    let q := queueAt (ctxAt (sprigOf s c.val p.val) x) k.val
    neighbour p.val k.val = some n → q.owed = r :: rest →
    (r ≤ (sprigOf s c.val n).cycle →
      ∃ t : State, exec (.queueCreditReturn c p x k) s = .next t ∧ t = { s with clusters := t.clusters } ∧ ClustersBut c.val s t ∧
        queueAt (ctxAt (sprigOf t c.val p.val) x) k.val = { q with owed := rest } ∧
        (∀ m : Nat, m ≠ p.val → sprigOf t c.val m = sprigOf s c.val m)) ∧
    ((sprigOf s c.val n).cycle < r → exec (.queueCreditReturn c p x k) s = .next s))

/-- In a sprig's turn, MEC, SUC and DRC, when the unit's queue holds fewer than 8 commands and it took none in the cycle, append the command of the register block with its sprig, context and issue cycle, and count it; else the sprig waits one cycle, a port stall (R174). RND writes rd with two consecutive outputs of the sprig's class B generator, the first in [15:0], each the low 16 bits of the state before 16 shifts (R177, R245), usable 2 cycles later, and counts 32 bits. -/
def Obligations.unit_commands_and_random_bits : Prop :=
  ∀ (s : State) (c : Cl) (p : Sp) (f : FmtA),
    let x := activeCtx s c.val p.val
    let a := (sprigOf s c.val p.val).active
    let w := fun k : Nat => getReg x ((f.rs1.val + k) % 32)
    let k := clusterAt s c.val
    (let rs := (List.range 4).map (fun j => (f.rs1.val + j) % 32)
     let u := issueCycle s c.val p.val rs false
     Issues s c.val p.val (wordA 0x34 f) rs false → isTurn k p.val u = true →
      (k.me.queue.length < 8 → u ∉ k.me.taken →
        ∃ t : State, exec (.mec c p f) s = .next t ∧ CtxKept x (activeCtx t c.val p.val) ∧
          Issued s t c.val p.val u { k with issued := k.issued + 1, me := { k.me with
            queue := k.me.queue ++ [{ w0 := w 0, w1 := w 1, w2 := w 2, w3 := w 3, sprig := p, ctx := a, at_ := u }],
            taken := k.me.taken ++ [u] } }) ∧
      (8 ≤ k.me.queue.length ∨ u ∈ k.me.taken →
        ∃ t : State, exec (.mec c p f) s = .next t ∧ t = { s with clusters := t.clusters } ∧ ClustersBut c.val s t ∧
          (clusterAt t c.val).me = k.me ∧ (sprigOf t c.val p.val).cycle = u + 1 ∧
          (sprigOf t c.val p.val).cnt.port = (sprigOf s c.val p.val).cnt.port + 1 ∧ activeCtx t c.val p.val = x)) ∧
    (let rs := (List.range 2).map (fun j => (f.rs1.val + j) % 32)
     let u := issueCycle s c.val p.val rs false
     isTurn k p.val u = true →
     (Issues s c.val p.val (wordA 0x35 f) rs false → k.su.queue.length < 8 → u ∉ k.su.taken →
        ∃ t : State, exec (.suc c p f) s = .next t ∧ CtxKept x (activeCtx t c.val p.val) ∧
          Issued s t c.val p.val u { k with issued := k.issued + 1, su := { k.su with
            queue := k.su.queue ++ [{ w0 := w 0, w1 := w 1, w2 := 0, w3 := 0, sprig := p, ctx := a, at_ := u }],
            taken := k.su.taken ++ [u] } }) ∧
     (Issues s c.val p.val (wordA 0x36 f) rs false → k.drw.queue.length < 8 → u ∉ k.drw.taken →
        ∃ t : State, exec (.drc c p f) s = .next t ∧ CtxKept x (activeCtx t c.val p.val) ∧
          Issued s t c.val p.val u { k with issued := k.issued + 1, drw := { k.drw with
            queue := k.drw.queue ++ [{ w0 := w 0, w1 := w 1, w2 := 0, w3 := 0, sprig := p, ctx := a, at_ := u }],
            taken := k.drw.taken ++ [u] } })) ∧
    (let u := issueCycle s c.val p.val [] false
     let g := (sprigOf s c.val p.val).lfsr
     Issues s c.val p.val (wordA 0x37 f) [] false →
      ∃ t : State, exec (.rnd c p f) s = .next t ∧ Issued s t c.val p.val u k ∧
        RegPut x (activeCtx t c.val p.val) f.rd.val ((lfsrShifts 16 g).setWidth 16 ++ g.setWidth 16) (u + 2) ∧
        (sprigOf t c.val p.val).lfsr = lfsrShifts 32 g ∧
        (sprigOf t c.val p.val).cnt.rnd = (sprigOf s c.val p.val).cnt.rnd + 32)

/-- LOOP opens its level with the body from the next address to LAST and COUNT − 1 passes left; the instruction at LAST returns the program counter to the body's start while passes are left and otherwise ends the level and goes on (R169). QSET makes its context active for the next cycle, its own cycle counted as a switch (R178). END completes the context and sets QLEFT when an inbound queue holds an entry (R182). IDLE waits IMM22[15:0] + 1 cycles, which IDLE_WAIT_END spends when no laying is in force. At a slot's start LAYING_SLOT_SWITCH takes one switch cycle and makes the slot's context active; the rest of a slot whose context has ended idles first (R179). END_MARKER_REACHED is noted exactly of a hedge in WORK whose clusters have all drained (R181). -/
def Obligations.control_instructions : Prop :=
  (∀ (s : State) (c : Cl) (p : Sp) (f : FmtC),
    let x := activeCtx s c.val p.val
    let a := (sprigOf s c.val p.val).active
    let u := issueCycle s c.val p.val [] false
    (Issues s c.val p.val (wordC 0x38 f) [] false → ∃ t : State, exec (.loop c p f) s = .next t ∧
      Issued s t c.val p.val u (clusterAt s c.val) ∧ SprigStores s t c.val p.val ∧ CtxKept x (activeCtx t c.val p.val) ∧
      let last := f.imm.toNat / 8192 % 256
      let l : Option LoopLevel := if last ≤ x.pc then none else some { first := x.pc + 1, last := last, left := f.imm.toNat % 8192 }
      (f.imm.getLsbD 21 = true → (activeCtx t c.val p.val).loop1 = l) ∧
      (f.imm.getLsbD 21 = false → (activeCtx t c.val p.val).loop0 = l)) ∧
    (Issues s c.val p.val (wordC 0x39 f) [] false → ∃ t : State, exec (.qset c p f) s = .next t ∧
      t = { s with clusters := t.clusters } ∧ ClustersBut c.val s t ∧ SprigStores s t c.val p.val ∧
      (sprigOf t c.val p.val).active.val = f.imm.toNat % 4 ∧ (sprigOf t c.val p.val).cycle = u + 1 ∧
      CtxKept x (ctxAt (sprigOf t c.val p.val) a) ∧
      (∀ b, b ≠ a → ctxAt (sprigOf t c.val p.val) b = ctxAt (sprigOf s c.val p.val) b) ∧
      (f.imm.toNat % 4 ≠ a.val →
        (sprigOf t c.val p.val).cnt.switch = (sprigOf s c.val p.val).cnt.switch + 1 ∧
        (sprigOf t c.val p.val).cnt.busy = (sprigOf s c.val p.val).cnt.busy)) ∧
    (Issues s c.val p.val (wordC 0x3A f) [] false → ∃ t : State, exec (.endI c p f) s = .next t ∧
      t = { s with clusters := t.clusters } ∧ ClustersBut c.val s t ∧ (activeCtx t c.val p.val).ended = true ∧
      (clusterAt t c.val).store = (clusterAt s c.val).store ∧
      (clusterAt t c.val).spgFlags = (if queuesHold x then (clusterAt s c.val).spgFlags ||| 8 else (clusterAt s c.val).spgFlags)) ∧
    (Issues s c.val p.val (wordC 0x3B f) [] false → ∃ t : State, exec (.idle c p f) s = .next t ∧
      Issued s t c.val p.val u (clusterAt s c.val) ∧ SprigStores s t c.val p.val ∧
      CtxKept { x with idleLeft := f.imm.toNat % 65536 + 1 } (activeCtx t c.val p.val))) ∧
  (∀ (x : Ctx) (l : LoopLevel), x.loop1 = none → x.loop0 = some l → x.pc = l.last →
    advancePc x = (if l.left = 0 then { x with loop0 := none, pc := x.pc + 1 }
      else { x with loop0 := some { l with left := l.left - 1 }, pc := l.first })) ∧
  (∀ x : Ctx, (∀ l, x.loop0 = some l → x.pc ≠ l.last) → (∀ l, x.loop1 = some l → x.pc ≠ l.last) →
    advancePc x = { x with pc := x.pc + 1 }) ∧
  (∀ (s : State) (c : Cl) (p : Sp) (x : Cx), clusterRuns s (clusterAt s c.val) = true →
    (sprigOf s c.val p.val).active = x → laying (clusterAt s c.val) = false →
    let n := (ctxAt (sprigOf s c.val p.val) x).idleLeft
    0 < n → ∃ t : State, exec (.idleWaitEnd c p x) s = .next t ∧ t = { s with clusters := t.clusters } ∧ ClustersBut c.val s t ∧
      activeCtx t c.val p.val = { activeCtx s c.val p.val with idleLeft := 0 } ∧
      (sprigOf t c.val p.val).cycle = (sprigOf s c.val p.val).cycle + n ∧
      (sprigOf t c.val p.val).cnt = { (sprigOf s c.val p.val).cnt with idle := (sprigOf s c.val p.val).cnt.idle + n }) ∧
  (∀ (s : State) (c : Cl) (p : Sp), clusterRuns s (clusterAt s c.val) = true → (sprigOf s c.val p.val).prog ≠ 0 →
    switchDue (clusterAt s c.val) (sprigOf s c.val p.val) = true → (sprigOf s c.val p.val).cycle < workCycles s →
    let y := sprigOf s c.val p.val
    ∃ t : State, exec (.layingSlotSwitch c p) s = .next t ∧ t = { s with clusters := t.clusters } ∧ ClustersBut c.val s t ∧
      (sprigOf t c.val p.val).active.val = y.cycle / (clusterAt s c.val).layPeriod % (clusterAt s c.val).layDepth % 4 ∧
      sprigOf t c.val p.val = { y with
        active := (sprigOf t c.val p.val).active, cycle := y.cycle + 1,
        cnt := { y.cnt with switch := y.cnt.switch + 1 } }) ∧
  (∀ (s : State) (c : Cl) (p : Sp),
    let k := clusterAt s c.val
    let y := sprigOf s c.val p.val
    let e := (y.cycle / k.layPeriod + 1) * k.layPeriod
    clusterRuns s k = true → laying k = true → y.prog ≠ 0 → switchDue k y = false →
    (ctxAt y y.active).ended = true → e < workCycles s →
    ∃ t : State, exec (.layingSlotSwitch c p) s = .next t ∧ t = { s with clusters := t.clusters } ∧ ClustersBut c.val s t ∧
      (sprigOf t c.val p.val).active.val = e / k.layPeriod % k.layDepth % 4 ∧
      sprigOf t c.val p.val = { y with
        active := (sprigOf t c.val p.val).active, cycle := e + 1,
        cnt := { y.cnt with switch := y.cnt.switch + 1, idle := y.cnt.idle + (e - y.cycle) } }) ∧
  (∀ (s : State) (h : InstId), Working (instAt s h.val) → s.tck.phase = .work →
    (∀ c, c ∈ clustersOf (instAt s h.val) → clusterDrained (clusterAt s c) = true) →
    ∃ t : State, exec (.endMarkerReached h) s = .next t ∧ t = { s with insts := t.insts } ∧ InstsBut h.val s t ∧
      instAt t h.val = { instAt s h.val with endMarker := true }) ∧
  (∀ (s : State) (h : InstId) (c : Nat), c ∈ clustersOf (instAt s h.val) → clusterDrained (clusterAt s c) = false →
    exec (.endMarkerReached h) s = .next s)

/-- XFER with a free tag in its context's set puts one operation in flight under that tag, with its block and, if it writes, its lines as the store holds them in that cycle; nothing in memory or the cluster store changes yet, and the accesses of a slice transfer leave one per cycle for their ports, 4 cycles away for a read and 15 for a write, 6 more with the stitch penalty (R119, R126, R136, R137, R176, R288). The tag is the lowest of the set that no operation holds (R137; a unit without a set has all, entry 50). Without one it waits one cycle, counted as a port and a tag stall. A slice port serves, of the accesses that have reached it, the first in the rotation by hedge-local id (R126), and a flit goes first along x, then along y, one router nearer at each hop (R120). XFER_REMOTE_SERVE of a target-2 operation whose message has all come acknowledges what was written, or reads the far store, one line a cycle from 2 cycles after the request on, and sends the lines back (R493). XFER_COMPLETE of an operation that has moved everything frees the tag and, with NOTIFY, appends the completion word, tag in [5:0] and status in [7:6], to the issuing context's U queue, one cycle later for target 2; a refused or malformed operation moves nothing in device memory, completes with its status and discards the hedge's tick (R176). -/
def Obligations.transfers_of_a_cluster : Prop :=
  (∀ (s : State) (c : Cl) (p : Sp) (f : FmtA),
    let rs := (List.range 4).map (fun j => (f.rs1.val + j) % 32)
    let m := storeReady s c.val p.val (wordA 0x2E f) rs
    let x := activeCtx m c.val p.val
    let a := (sprigOf m c.val p.val).active
    let w := fun k : Nat => getReg x ((f.rs1.val + k) % 32)
    let k := clusterAt m c.val
    let u := issueCycle m c.val p.val rs false
    let b := xblock (w 0) (w 1) (w 2) (w 3)
    let sk := xKind m (instAt m k.owner) c.val b
    Issues m c.val p.val (wordA 0x2E f) rs false → isTurn k p.val u = true →
    (∀ tag : Nat, freeTag k (p.val * 4 + a.val) = some tag → (b.read = true ∨ ∀ l, mget k.poison false l = false) →
      ∃ t : State, exec (.xfer c p f) s = .next t ∧ t.mem = m.mem ∧ t.tck = m.tck ∧ t.insts = m.insts ∧
        (clusterAt t c.val).store = k.store ∧ CtxKept x (activeCtx t c.val p.val) ∧ (sprigOf t c.val p.val).cycle = u + 1 ∧
        (∃ o : Op, (clusterAt t c.val).ops = k.ops ++ [o] ∧ o.tag = tag ∧ o.kind = sk.2 ∧ o.status = sk.1 ∧ o.at_ = u ∧
          o.notify = f.fn.getLsbD 0 ∧ o.sprig = p ∧ o.ctx = a ∧ o.served = false ∧
          o.data = (if b.read then [] else (sendLines k b u m.fresh).1)) ∧
        (sk.2 = .slice → ∃ l : List (Nat × Option Nat), xLines m (instAt m k.owner) (dieOf c.val) b = some l ∧
          (netAt t k.owner).acc.map (fun e => (e.beat, e.dpa, e.at_)) =
            (netAt m k.owner).acc.map (fun e => (e.beat, e.dpa, e.at_)) ++ ((List.range l.length).zip l).map fun e =>
              (e.1, e.2.1, max u (if b.read then k.portRead else k.portWrite) + e.1 +
                (if c.val % 8 = 3 ∨ decide (4 ≤ c.val % 8) ≠ decide (sliceIndexOf e.2.1 / 16 % 2 = 1) then 6 else 0) +
                (if b.read then 4 else 15)))) ∧
    (freeTag k (p.val * 4 + a.val) = none →
      ∃ t : State, exec (.xfer c p f) s = .next t ∧ t = { m with clusters := t.clusters } ∧ ClustersBut c.val m t ∧
        (clusterAt t c.val).tagStall = k.tagStall + 1 ∧ (clusterAt t c.val).ops = k.ops ∧
        (sprigOf t c.val p.val).cycle = u + 1 ∧
        (sprigOf t c.val p.val).cnt.port = (sprigOf m c.val p.val).cnt.port + 1 ∧ activeCtx t c.val p.val = x)) ∧
  (∀ (k : Cluster) (u tag : Nat), freeTag k u = some tag →
    let set := (mget k.tagSets none u).getD (List.range 64)
    tag ∈ set ∧ (∀ o ∈ k.ops, o.tag ≠ tag) ∧ ∀ n ∈ set, (∀ o ∈ k.ops, o.tag ≠ n) → tag ≤ n) ∧
  (∀ (l : List Access) (start n t : Nat) (read : Bool),
    (∀ a : Access, portPick l start n t read = some a → a ∈ l ∧ a.read = read ∧ a.at_ ≤ t ∧
      ∀ b ∈ l, b.read = read → b.at_ ≤ t → (a.lid + n - start % n) % n ≤ (b.lid + n - start % n) % n) ∧
    (portPick l start n t read = none → ∀ b ∈ l, ¬(b.read = read ∧ b.at_ ≤ t))) ∧
  (∀ r d : Fin 512, (outTo r.val d.val = 0 ↔ r = d) ∧ (r ≠ d →
    let e := nextRouter r.val (outTo r.val d.val)
    let far := fun q : Nat => max (q % 32) (d.val % 32) - min (q % 32) (d.val % 32) + (max (q / 32) (d.val / 32) - min (q / 32) (d.val / 32))
    far e + 1 = far r.val ∧ (r.val % 32 ≠ d.val % 32 → e / 32 = r.val / 32))) ∧
  (∀ (s : State) (c dst : Cl) (tag : Fin 64) (o0 o : Op),
    let h := ownerOf s c.val
    let s1 := netUntil h (fun s => (opAt (clusterAt s c.val) tag.val).any fun o => o.left == 0) netFuel s
    let b := xblock o.w0 o.w1 o.w2 o.w3
    let vc : Fin 4 := ⟨b.vc % 4, Nat.mod_lt _ (by decide)⟩
    opAt (clusterAt s c.val) tag.val = some o0 → o0.kind = .cluster dst → o0.served = false →
    clusterRuns s (clusterAt s c.val) = true → opAt (clusterAt s1 c.val) tag.val = some o →
    (o.left ≠ 0 → exec (.xferRemoteServe c tag) s = .next s1) ∧
    (o.left = 0 → b.read = false →
      ∃ t : State, exec (.xferRemoteServe c tag) s = .next t ∧ t = { s1 with clusters := t.clusters, nets := t.nets } ∧
        ClustersBut c.val s1 t ∧ opAt (clusterAt t c.val) tag.val = some { o with served := true, left := 1 } ∧
        mget (netAt t h).inj [] (dst.val * 2) = mget (netAt s1 h).inj [] (dst.val * 2) ++
          [{ c := c, tag := tag.val, back := true, idx := 0, dst := c, vc := vc, at_ := o.done }]) ∧
    (o.left = 0 → b.read = true → (∀ l, mget (clusterAt s1 dst.val).poison false l = false) →
      ∃ (t : State) (us : List Nat), exec (.xferRemoteServe c tag) s = .next t ∧ t.mem = s1.mem ∧ t.insts = s1.insts ∧
        us = (farReads o.w1 b.n 0 (o.done + 2) (clusterAt s1 dst.val)).1 ∧ us.length = b.n ∧ us.Pairwise (· < ·) ∧
        (∀ u ∈ us, o.done + 2 ≤ u) ∧ (∀ d : Nat, (clusterAt t d).store = (clusterAt s1 d).store) ∧
        opAt (clusterAt t c.val) tag.val = some { o with served := true, left := b.n, data := ((List.range b.n).zip us).map (fun p =>
          (p.1, readBytes (storeSeen (clusterAt s1 dst.val) p.2 p.2 (s1.fresh + p.1 * 1024)).1 (farAddr o.w1 p.1 % 0x100000) 64)) } ∧
        mget (netAt t h).inj [] (dst.val * 2) = mget (netAt s1 h).inj [] (dst.val * 2) ++ (List.range b.n).map fun j =>
          { c := c, tag := tag.val, back := true, idx := j, dst := c, vc := vc, at_ := us.getD j 0 })) ∧
  (∀ (s : State) (c : Cl) (tag : Fin 64) (bad : List Nat) (o : Op),
    let h := ownerOf s c.val
    let s1 := netUntil h (fun s => (opAt (clusterAt s c.val) tag.val).any fun o => o.left == 0) netFuel s
    let k := clusterAt s1 c.val
    let q := fun t : State => (queueAt (ctxAt (sprigOf t c.val o.sprig.val) o.ctx) 4).q
    let late := fun n : Nat => if o.notify then [(BitVec.ofNat 32 (tag.val + 64 * o.status), o.done + n)] else []
    clusterRuns s (clusterAt s c.val) = true → clusterRuns s1 k = true → opAt k tag.val = some o → o.left = 0 →
    (o.notify = true → uRoom k o.sprig.val o.ctx 1 = true →
      (o.kind = .slice ∨ o.kind = .hbm ∨ (∃ d, o.kind = .cluster d ∧ o.served = true)) → bad = [] → o.bad = [] → o.status = 0 →
      ∃ t : State, exec (.xferComplete c tag bad) s = .next t ∧ t = { s1 with clusters := t.clusters } ∧ ClustersBut c.val s1 t ∧
        opAt (clusterAt t c.val) tag.val = none ∧ (clusterAt t c.val).store = k.store ∧
        q t = q s1 ++ late (match o.kind with | .cluster _ => 1 | _ => 0)) ∧
    (o.notify = true → uRoom k o.sprig.val o.ctx 1 = false →
      (o.kind = .slice ∨ o.kind = .hbm ∨ o.kind = .refused ∨ (∃ d, o.kind = .cluster d ∧ o.served = true)) →
      ∃ t : State, exec (.xferComplete c tag bad) s = .next t ∧ t = { s1 with clusters := t.clusters } ∧ ClustersBut c.val s1 t ∧
        (clusterAt t c.val).tagStall = k.tagStall + 1 ∧ opAt (clusterAt t c.val) tag.val = some { o with done := o.done + 1 } ∧
        (clusterAt t c.val).sprigs = k.sprigs) ∧
    (o.kind = .refused → (o.notify = true → uRoom k o.sprig.val o.ctx 1 = true) →
      ∃ t : State, exec (.xferComplete c tag bad) s = .next t ∧ t.mem = s1.mem ∧ t.tck = s1.tck ∧ InstsBut h s1 t ∧
        opAt (clusterAt t c.val) tag.val = none ∧ q t = q s1 ++ late 0 ∧
        (Working (instAt s1 h) → (instAt t h).dFault = true)) ∧
    (o.notify = false → (o.kind = .slice ∨ o.kind = .hbm) → bad = [] → o.bad = [] →
      ∃ t : State, exec (.xferComplete c tag bad) s = .next t ∧ t = { s1 with clusters := t.clusters } ∧
        opAt (clusterAt t c.val) tag.val = none ∧ (clusterAt t c.val).sprigs = k.sprigs))

/-- MATMUL, LACC_READ, LACC_CLEAR, POST and NOP at the head of an idle engine's queue of a running cluster whose store holds no poison are dispatched: the command leaves the queue, nothing in device memory changes, and it completes at 16 + P + G × C_g cycles after its issue, or behind the previous command as R140 says. A command with reserved or inconsistent fields, an OP beyond 4 among them, returns ILLEGAL alone, writes nothing and counts its cycles as stalls (R157; which cycles those are is the model's choice, entry 53); any other counts G × C_g busy cycles, and every line that it puts on its way to the cluster store lies inside its output and lands between the cycle in which the engine begins it and its completion (R142). LACC_CLEAR leaves every accumulator zero, LACC_READ puts each lane's 32 B on the way, with the flag word of the command (R151; one lane after the other from C_ADDR on, entry 53). ME_COMMAND_COMPLETE puts the flag word into U and ORs it into MEX_FLAGS (R158), or stalls one cycle while U is full (R173). -/
def Obligations.matrix_engine_commands : Prop :=
  (∀ (s : State) (c : Cl) (u : UCmd) (rest : List UCmd),
    let k := clusterAt s c.val
    let m := meCmd u
    let len := if m.op = 2 then 512 else if m.op = 1 ∨ m.op = 4 then m.m * m.n * outSize m.outfmt else 0
    clusterRuns s k = true → k.me.run = none → k.me.queue = u :: rest → (∀ l, mget k.poison false l = false) →
    ∀ q ∈ ([(Instr.meMatmul c, decide (m.op = 1)), (Instr.laccRead c, decide (m.op = 2)), (Instr.laccClear c, decide (m.op = 3)),
        (Instr.post c, decide (m.op = 4)), (Instr.meNop c, decide (m.op = 0 ∨ 4 < m.op))] : List (Instr × Bool)), q.2 = true →
    ∃ (t : State) (f : BitVec 9), exec q.1 s = .next t ∧ t = { s with clusters := t.clusters, fresh := t.fresh } ∧ ClustersBut c.val s t ∧
      (clusterAt t c.val).sprigs = k.sprigs ∧ (clusterAt t c.val).me.queue = rest ∧ (clusterAt t c.val).store = k.store ∧
      (clusterAt t c.val).me.run = some { cmd := u, ret := [f.setWidth 32], done := (clusterAt t c.val).me.lastDone } ∧
      (k.me.lastDone ≤ u.at_ → (clusterAt t c.val).me.lastDone = u.at_ + 16 + panelCycles m + busyCycles m) ∧
      (u.at_ < k.me.lastDone → (clusterAt t c.val).me.lastDone =
        k.me.lastDone + (if m.dep then 16 + panelCycles m else 0) + busyCycles m) ∧
      (4 < m.op → meBad m = true) ∧
      (meBad m = true → f = 0x100 ∧ (clusterAt t c.val).landing = k.landing ∧ (clusterAt t c.val).me.busy = k.me.busy ∧
        (clusterAt t c.val).me.stall = k.me.stall + busyCycles m) ∧
      (meBad m = false → (clusterAt t c.val).me.busy = k.me.busy + busyCycles m ∧ (clusterAt t c.val).me.stall = k.me.stall ∧
        (∀ e ∈ (clusterAt t c.val).landing, e ∈ k.landing ∨
          (e.lo = max u.at_ k.me.lastDone ∧ e.hi = (clusterAt t c.val).me.lastDone ∧ m.c ≤ e.addr ∧ e.addr + e.bytes.length ≤ m.c + len)) ∧
        (m.op = 3 → ∀ l : Nat, mget (clusterAt t c.val).me.acc {} l = {}) ∧
        (m.op = 2 →
          f = (List.range 16).foldl (fun g l => g ||| longFlags (mget (startAcc k.me m) {} l)) 0 ∧
          (clusterAt t c.val).landing =
            (landRange k (max u.at_ k.me.lastDone) (clusterAt t c.val).me.lastDone m.c
              ((List.range 16).flatMap fun l => longBytes m.e0 (mget (startAcc k.me m) {} l) f)).landing))) ∧
  (∀ (s : State) (c : Cl) (r : URun),
    let k := clusterAt s c.val
    clusterRuns s k = true → k.me.run = some r →
    (uRoom k r.cmd.sprig.val r.cmd.ctx 1 = true →
      ∃ t : State, exec (.meCommandComplete c) s = .next t ∧ t = { s with clusters := t.clusters } ∧ ClustersBut c.val s t ∧
        (clusterAt t c.val).me.run = none ∧ (clusterAt t c.val).me.cmds = k.me.cmds + 1 ∧
        (clusterAt t c.val).me.flags = k.me.flags ||| (r.ret.getD 0 0).setWidth 9 ∧ (clusterAt t c.val).store = k.store ∧
        (queueAt (ctxAt (sprigOf t c.val r.cmd.sprig.val) r.cmd.ctx) 4).q =
          (queueAt (ctxAt (sprigOf s c.val r.cmd.sprig.val) r.cmd.ctx) 4).q ++ r.ret.map (fun w => (w, r.done))) ∧
    (uRoom k r.cmd.sprig.val r.cmd.ctx 1 = false →
      ∃ t : State, exec (.meCommandComplete c) s = .next t ∧ t = { s with clusters := t.clusters } ∧ ClustersBut c.val s t ∧
        clusterAt t c.val = { k with me := { k.me with
          stall := k.me.stall + 1, run := some { r with done := r.done + 1 }, lastDone := k.me.lastDone + 1 } }))

/-- For every MATMUL in mode 8 with OUTFMT INT32, POSTOP 0 and ACC 0 that is executed while no other write to the cluster store is on its way, every element of C, once its lines have landed, is, as a signed 32-bit number, exactly the sum over k of A[row][k] × B[k][column], with A in rows that start at 64 B boundaries and B in panels of 8 columns, one after another (R139, R141, R149; that no gap stands between panels is the model's reading, entry 53): no product is lost and no saturation occurs. -/
def Obligations.int8_products_are_exact : Prop :=
  ∀ (s : State) (c : Cl) (u : UCmd) (row col : Nat),
    let k := clusterAt s c.val
    let m := meCmd u
    meHead s k 1 = some u → meBad m = false → m.mode = 8 → m.outfmt = 6 → m.postop = 0 → m.acc = false →
    k.landing = [] → (∀ l, mget k.poison false l = false) → row < m.m → col < m.n →
    ∃ t : State, exec (.meMatmul c) s = .next t ∧
      toSigned 32 (readLe (settleAll (clusterAt t c.val)).store (m.c + (row * m.n + col) * 4) 4) =
        ((List.range m.k).map fun j =>
          toSigned 8 (byteAt k.store (m.a + row * ((m.k + 63) / 64 * 64) + j)).toNat *
            toSigned 8 (byteAt k.store (m.b + col / 8 * (m.k * 8) + j * 8 + col % 8)).toNat).sum

/-- The command at the head of an array's queue that its free engine takes is dispatched once both engines have run up to its cycle; it leaves the queue and completes its fixed duration after its dispatch; a command with bad fields, an OP beyond 7 among them, or one in a checkpoint window is ILLEGAL and changes no block (R195–R197, R213). In each SU cycle of a SWEEP in which updates start, every active block makes one, couplings stay as they are, and the last of 64 ends a sweep (R198). APPLY adds J × (latched − applied value) of every entry to its field, four entries a cycle, and at its end the applied values are the latched ones (R206). REBUILD gives every active block the fields of R189. LOAD of targets 3 and 4 sets the clamps and states of the blocks it names from the store (R195). READ changes no block. SWAP changes no state; once its lines have come only the resident sheet's couplings change (R208). EXPORT sends a header flit and ⌈c/8⌉ data flits under a tag of the boundary engine, into which it reads its blocks' value bits, or stalls without a tag; one outside the hedge is dropped and counted (R65, R205); its arrival sets the ghost slots and frees the tag. Completion returns the word to U, or stalls a cycle while U is full (R173). -/
def Obligations.stochastic_unit_commands : Prop :=
  (∀ (s : State) (c : Cl) (u : UCmd) (op : Nat),
    let m := suCmd u
    let at0 := suDispatchAt (clusterAt s c.val).su u m
    let s1 := suAdvance c.val at0 suFuel s
    let k := clusterAt s1 c.val
    let dur := suDuration s1 c.val k.su m
    let at1 := suDispatchAt k.su u m
    let bad := suFieldsBad k.su m || inCkptWindow (instAt s1 k.owner) at0 dur
    let engine := fun t : State => if isBoundary op then (clusterAt t c.val).su.bndRun else (clusterAt t c.val).su.sweepRun
    suHead s (clusterAt s c.val) op = some u → (∀ l, mget k.poison false l = false) →
    (∀ q ∈ ([(Instr.sweep c, 1), (Instr.apply c, 2), (Instr.load c, 4), (Instr.rebuild c, 5), (Instr.read c, 6),
        (Instr.suNop c, 0)] : List (Instr × Nat)), op = q.2 →
      (∃ t : State, exec q.1 s = .next t ∧ t.mem = s1.mem ∧ t.tck = s1.tck ∧ t.insts = s1.insts ∧ ClustersBut c.val s1 t ∧
        (clusterAt t c.val).su.queue = k.su.queue.tail ∧ (clusterAt t c.val).su.lastDisp = at1 ∧
        (clusterAt t c.val).store = k.store ∧
        (engine t).map (fun r => (r.cmd, r.start, r.done, r.pos)) = some (u, at1, at1 + dur, 0)) ∧
      (bad = true → ∃ t : State, exec q.1 s = .next t ∧ (clusterAt t c.val).su.flags = k.su.flags ||| 2 ∧
        (clusterAt t c.val).su.blocks = k.su.blocks ∧ (clusterAt t c.val).landing = k.landing)) ∧
    (8 ≤ op → ∃ t : State, exec (.suNop c) s = .next t ∧ (clusterAt t c.val).su.flags = k.su.flags ||| 2 ∧
      (clusterAt t c.val).su.blocks = k.su.blocks) ∧
    (bad = false →
      (op = 1 → ∃ t : State, exec (.sweep c) s = .next t ∧ (clusterAt t c.val).su.blocks = k.su.blocks ∧
        (clusterAt t c.val).su.flags = k.su.flags ∧ (engine t).map (·.status) = some 0) ∧
      (op = 2 → ∃ t : State, exec (.apply c) s = .next t ∧ (clusterAt t c.val).su.blocks = k.su.blocks ∧
        (engine t).map (·.latched) = some k.su.received ∧
        (k.su.spcnt = 0 → ∀ g : Nat, g < 16384 → appliedBit (clusterAt t c.val).su g = mget k.su.received false g)) ∧
      (op = 4 → (m.f3 = 3 ∨ m.f3 = 4) → k.landing = [] → ∃ t : State, exec (.load c) s = .next t ∧ ∀ j : Nat, j ≤ m.b →
        let w : Word64 := BitVec.ofNat 64 (leNat (wrapRead k.store (m.addr * 64 + j * 8) 8))
        (m.f3 = 3 → (blockOf (clusterAt t c.val).su k.su.resident (m.a + j)).clamps = w) ∧
        (m.f3 = 4 → (blockOf (clusterAt t c.val).su k.su.resident (m.a + j)).states = w)) ∧
      (op = 5 → ∃ t : State, exec (.rebuild c) s = .next t ∧ ∀ b : Nat, b < activeBlocks k.su.mode.toNat →
        blockOf (clusterAt t c.val).su k.su.resident b =
          { blockOf k.su k.su.resident b with fields := rebuiltFields k.su b }) ∧
      (op = 6 → ∃ t : State, exec (.read c) s = .next t ∧ (clusterAt t c.val).su.blocks = k.su.blocks) ∧
      (op = 7 → ∀ tag : Nat, freeTag (clusterAt s c.val) 64 = some tag →
        (sheetLines s1 (instAt s1 k.owner) (dieOf c.val) (mget k.su.sheetVa 0 m.f3).toNat).length = 10240 →
        ∃ (t : State) (o : Op), exec (.suSwap c) s = .next t ∧ (clusterAt t c.val).ops = k.ops ++ [o] ∧ o.tag = tag ∧
          (clusterAt t c.val).su.resident = k.su.resident ∧ (clusterAt t c.val).su.blocks = k.su.blocks ∧
          (engine t).map (·.status) = some 0 ∧ t.mem = s1.mem ∧ t.insts = s1.insts) ∧
      (op = 3 → m.lid < (instAt s1 k.owner).w * (instAt s1 k.owner).h → ∀ tag : Nat, freeTag (clusterAt s c.val) 65 = some tag →
        ∃ (t : State) (o : Op) (dst : Cl), exec (.exportCmd c) s = .next t ∧ (clusterAt t c.val).ops = k.ops ++ [o] ∧
          o.tag = tag ∧ o.kind = .exportTo dst ∧ dst.val = globalId (instAt s1 k.owner) m.lid % 512 ∧
          o.left = 1 + (m.b + 8) / 8 ∧ (clusterAt t c.val).su.blocks = k.su.blocks ∧
          (mget (netAt t k.owner).inj [] (c.val * 2 + 1)).length =
            (mget (netAt s1 k.owner).inj [] (c.val * 2 + 1)).length + 1 + (m.b + 8) / 8) ∧
      (op = 3 → (instAt s1 k.owner).w * (instAt s1 k.owner).h ≤ m.lid → (freeTag (clusterAt s c.val) 65).isSome = true →
        Working (instAt s1 k.owner) →
        ∃ t : State, exec (.exportCmd c) s = .next t ∧ (instAt t k.owner).dFault = true ∧
          (instAt t k.owner).wallOut = (instAt s1 k.owner).wallOut + BitVec.ofNat 32 (1 + (m.b + 8) / 8))) ∧
    (∀ q ∈ ([(Instr.exportCmd c, 3, 65), (Instr.suSwap c, 7, 64)] : List (Instr × Nat × Nat)), op = q.2.1 →
      freeTag (clusterAt s c.val) q.2.2 = none →
      exec q.1 s = .next (modCluster s c.val fun y => { y with
        tagStall := y.tagStall + 1, su := { y.su with stall := y.su.stall + 1, lastDisp := at0 + 1 } }))) ∧
  (∀ (s : State) (c : Cl) (r : SuRun),
    let u := (clusterAt s c.val).su
    let n := suR u.mode.toNat
    u.sweepRun = some r → (∀ b, (mget u.noise {} b).reps < 5) →
    let w := (clusterAt (sweepStep s c.val r) c.val).su
    w.sweepRun.map (·.pos) = some (r.pos + 1) ∧ w.dense = u.dense ∧ w.sparse = u.sparse ∧
      w.updates = u.updates + (if r.pos % n = 0 then activeBlocks u.mode.toNat else 0) ∧
      w.sweeps = u.sweeps + (if r.pos % (64 * n) = 64 * n - 1 then 1 else 0)) ∧
  (∀ (u : Su) (r : SuRun), u.bndRun = some r → r.pos = 0 → 0 < u.spcnt →
    let step := fun w : Su => match w.bndRun with | some q => applyStep w q | none => w
    let w := step^[applySteps u] u
    (∀ g : Nat, g < 16384 → appliedBit w g = mget r.latched false g) ∧
    (∀ b i : Nat, b < 64 → i < 64 →
      (blockOf w u.resident b).states = (blockOf u u.resident b).states ∧
      mget (blockOf w u.resident b).fields 0 i = mget (blockOf u u.resident b).fields 0 i +
        ((List.range u.spcnt).map fun n =>
          let e := mget u.sparse {} n
          if e.target = 64 * b + i then
            e.j * (ghostValue u e.ghost (mget r.latched false e.ghost) - ghostValue u e.ghost (appliedBit u e.ghost))
          else 0).sum)) ∧
  (∀ (s : State) (c : Nat) (r : SuRun) (o : Op),
    let u := (clusterAt s c).su
    let m := suCmd r.cmd
    opAt (clusterAt s c) r.tag = some o →
    opAt (clusterAt (exportStep s c r) c) r.tag = some { o with bits := o.bits ++ (List.range 64).map fun i =>
      (m.addr + 64 * r.pos + i, (blockOf u u.resident (m.a + r.pos)).states.getLsbD i, u.enc.getLsbD (m.a + r.pos)) }) ∧
  (∀ (s : State) (c dst : Cl) (tag : Fin 64) (o0 o o2 : Op),
    let s1 := netUntil (ownerOf s c.val) (fun s => (opAt (clusterAt s c.val) tag.val).any fun o => o.left == 0) netFuel s
    let s2 := suAdvance c.val o.done suFuel s1
    opAt (clusterAt s c.val) tag.val = some o0 → o0.kind = .exportTo dst → clusterRuns s (clusterAt s c.val) = true →
    opAt (clusterAt s1 c.val) tag.val = some o →
    (o.left ≠ 0 → exec (.exportArrival c tag) s = .next s1) ∧
    (o.left = 0 → opAt (clusterAt s2 c.val) tag.val = some o2 →
      ∃ t : State, exec (.exportArrival c tag) s = .next t ∧ opAt (clusterAt t c.val) tag.val = none ∧
        (clusterAt t dst.val).su.received =
          o2.bits.foldl (fun m b => mset m false b.1 b.2.1) (clusterAt s2 dst.val).su.received ∧
        (clusterAt t dst.val).su.blocks = (clusterAt s2 dst.val).su.blocks ∧ t = { s2 with clusters := t.clusters })) ∧
  (∀ (s : State) (c : Cl) (b : Bool) (r0 r : SuRun),
    let run := fun t : State => if b then (clusterAt t c.val).su.bndRun else (clusterAt t c.val).su.sweepRun
    let s1 := suAdvance c.val r0.done suFuel s
    let k := clusterAt s1 c.val
    clusterRuns s (clusterAt s c.val) = true → run s = some r0 → ¬((suCmd r0.cmd).op = 7 ∧ r0.status = 0) → run s1 = some r →
    ∃ t : State, exec (.suCommandComplete c b) s = .next t ∧ t = { s1 with clusters := t.clusters } ∧ ClustersBut c.val s1 t ∧
      (uRoom k r.cmd.sprig.val r.cmd.ctx 1 = true → run t = none ∧
        (queueAt (ctxAt (sprigOf t c.val r.cmd.sprig.val) r.cmd.ctx) 4).q =
          (queueAt (ctxAt (sprigOf s1 c.val r.cmd.sprig.val) r.cmd.ctx) 4).q ++ [(suWord r, r.done)]) ∧
      (uRoom k r.cmd.sprig.val r.cmd.ctx 1 = false → run t = some { r with done := r.done + 1 } ∧
        (clusterAt t c.val).su.stall = k.su.stall + 1 ∧ (clusterAt t c.val).sprigs = k.sprigs)) ∧
  (∀ (s : State) (c : Cl) (r : SuRun) (o : Op),
    let s1 := suAdvance c.val r.done suFuel s
    let s2 := netUntil (ownerOf s1 c.val) (fun s => (opAt (clusterAt s c.val) r.tag).any fun o => o.left == 0) netFuel s1
    let k := clusterAt s2 c.val
    clusterRuns s (clusterAt s c.val) = true → (clusterAt s c.val).su.sweepRun = some r → k.su.sweepRun = some r →
    (suCmd r.cmd).op = 7 → r.status = 0 → opAt k r.tag = some o → o.left = 0 → o.bad = [] →
    uRoom k r.cmd.sprig.val r.cmd.ctx 1 = true →
    ∃ t : State, exec (.suCommandComplete c false) s = .next t ∧ opAt (clusterAt t c.val) r.tag = none ∧
      (clusterAt t c.val).su.resident = (suCmd r.cmd).f3 ∧ (clusterAt t c.val).su.blocks = k.su.blocks ∧
      (clusterAt t c.val).su.received = k.su.received ∧ (clusterAt t c.val).su.applied = k.su.applied ∧
      (clusterAt t c.val).su.sweepRun = none ∧
      (queueAt (ctxAt (sprigOf t c.val r.cmd.sprig.val) r.cmd.ctx) 4).q =
        (queueAt (ctxAt (sprigOf s2 c.val r.cmd.sprig.val) r.cmd.ctx) 4).q ++ [(suWord r, max r.done o.done)])

/-- DRAW at the head of a free unit's queue, on the store as it stands in the cycle of dispatch and without poison: an ILLEGAL command sets the ILLEGAL flag, takes no random bits and counts its cycles as stalls (R250); with τ = 0 the index is the lowest one of the largest logit, π is 1.0, the log-probability 0 and no random bits are taken (R251); otherwise, with ACLASS 0, it draws on two consecutive outputs of the unit's generator and counts 32 bits and one draw (R252). Each completes R254's cycles after its dispatch and leaves the cluster store as it is. NOP draws nothing. DRAW_COMPLETE puts the entries into U as far as there is space; with all of them in it the command is done and counted (R253), and otherwise the rest waits in the unit, which stalls a cycle (R173). -/
def Obligations.draws : Prop :=
  (∀ (s : State) (c : Cl) (u : UCmd) (isDraw : Bool),
    let r := drawSees s c.val u
    let s1 := r.1
    let st := r.2
    let k := clusterAt s1 c.val
    let m := drawCmd u
    let done := max u.at_ k.drw.free + drawCycles st m
    let g := k.drw.lfsr
    drawHead s (clusterAt s c.val) isDraw = some u → (∀ l, mget k.poison false l = false) →
    ∃ t : State, exec (if isDraw then .draw c else .drawNop c) s = .next t ∧ t = { s1 with clusters := t.clusters } ∧
      ClustersBut c.val s1 t ∧ (clusterAt t c.val).store = k.store ∧ (clusterAt t c.val).sprigs = k.sprigs ∧
      (clusterAt t c.val).drw.queue = k.drw.queue.tail ∧ (clusterAt t c.val).drw.run.map (·.done) = some done ∧
      ((isDraw = true ∧ drawBad st m = true) ∨ (isDraw = false ∧ m.op ≠ 0) →
        (clusterAt t c.val).drw.flags = k.drw.flags ||| 16 ∧ (clusterAt t c.val).drw.lfsr = g ∧
        (clusterAt t c.val).drw.stall = k.drw.stall + drawCycles st m) ∧
      (isDraw = true → drawBad st m = false → isZero (drawTau st m) = true →
        (clusterAt t c.val).drw.lfsr = g ∧ (clusterAt t c.val).drw.draws = k.drw.draws ∧
        ∃ fl : Nat, (clusterAt t c.val).drw.run.map (·.ret) =
          some ([BitVec.ofNat 32 ((argMax ((List.range m.len).zip (logits st m).1)).1 % 65536 + fl * 65536), 0x3F800000] ++
            (if m.logp then [0] else []))) ∧
      (isDraw = true → drawBad st m = false → isZero (drawTau st m) = false → m.aclass = false →
        (clusterAt t c.val).drw.run.map (·.ret) =
          some (drawReturn m (drawResult st m ((lfsrShifts 16 g).setWidth 16 ++ g.setWidth 16))) ∧
        (clusterAt t c.val).drw.lfsr = lfsrShifts 32 g ∧ (clusterAt t c.val).drw.draws = k.drw.draws + 1 ∧
        (clusterAt t c.val).drw.bits = k.drw.bits + 32) ∧
      (isDraw = false → m.op = 0 → (clusterAt t c.val).drw.lfsr = g ∧ (clusterAt t c.val).drw.flags = k.drw.flags ∧
        (clusterAt t c.val).drw.draws = k.drw.draws)) ∧
  (∀ (s : State) (c : Cl) (r : URun),
    let k := clusterAt s c.val
    let q := fun t : State => queueAt (ctxAt (sprigOf t c.val r.cmd.sprig.val) r.cmd.ctx) 4
    let room := (q s).depth - (q s).q.length
    clusterRuns s k = true → k.drw.run = some r →
    ∃ t : State, exec (.drawComplete c) s = .next t ∧ t = { s with clusters := t.clusters } ∧ ClustersBut c.val s t ∧
      (q t).q = (q s).q ++ (r.ret.take room).map (fun w => (w, r.done)) ∧
      (r.ret.length ≤ room → (clusterAt t c.val).drw.run = none ∧ (clusterAt t c.val).drw.cmds = k.drw.cmds + 1) ∧
      (room < r.ret.length → (clusterAt t c.val).drw.stall = k.drw.stall + 1 ∧
        (clusterAt t c.val).drw.run = some { r with ret := r.ret.drop room, done := r.done + 1 }))

/-- The repetition count test fails on 41 equal samples in a row, and a start-up passes it when no 41 in a row are equal (R240). A class A channel that delivers or starts and fails a test stops and is marked FAIL, the others as they were, code 0x6002 logged; with every channel failed DEGRADED is set, and no DRAW_ENTROPY stays in progress (R242, R256). RETRY stops the named channels and starts their test, FAIL kept (R242); a channel whose 1,024 start-up samples pass both tests delivers, its FAIL and DEGRADED cleared, and after the ENTROPY stage it instantiates a key DRBG that is not (R241, R243, R444). A noise trim pass in COPPICE moves the code of the source whose turn it is, failed or not, by at most one and keeps it inside the envelope, and the job goes on behind it; in any other phase, or out of turn, it changes nothing (R55, R56, R236; the order of the sources is the model's choice, entry 58). -/
def Obligations.entropy_and_noise_trim : Prop :=
  (∀ run : List Bool, rctFails run = true ↔ 41 ≤ run.length ∧ ∃ b, ∀ x ∈ run.drop (run.length - 41), x = b) ∧
  (∀ l : List Bool, rctPasses none 0 l = true ↔ ∀ j, j + 41 ≤ l.length → ¬∃ b, ∀ x ∈ (l.drop j).take 41, x = b) ∧
  (∀ (s : State) (n : PortId) (run window : List Bool), (s.ent.ok.getLsbD n.val = true ∨ s.ent.starting.getLsbD n.val = true) →
    (rctFails run = true ∨ aptFails window = true) →
    ∃ t : State, exec (.classAFail n run window) s = .next t ∧
      t.ent.ok = s.ent.ok &&& ~~~((1 : BitVec 4) <<< n.val) ∧ t.ent.fail = s.ent.fail ||| ((1 : BitVec 4) <<< n.val) ∧
      t.ent.degraded = (s.ent.degraded || decide (t.ent.fail = 15)) ∧ t.ent.seedMiss = s.ent.seedMiss ∧
      (t.ent.fail = 15 → s.ent.degraded = false → ∀ x ∈ t.xfers, x.kind ≠ .entropy) ∧
      ((∀ x ∈ s.xfers, x.kind ≠ .entropy) →
        t = { s with ent := t.ent, fresh := t.fresh, errs := t.errs, pgs := t.pgs } ∧ PagesBut [4, 6] s t)) ∧
  (∀ (s : State) (n : PortId) (run window : List Bool), rctFails run = false → aptFails window = false →
    exec (.classAFail n run window) s = .next s) ∧
  (∀ (s : State) (m : BitVec 4), Bar0 s 4 →
    ∃ t : State, exec (.classARetry m) s = .next t ∧ PagesBut [4, pgLink s] s t ∧
      t = { s with pgs := t.pgs, ent := { s.ent with ok := s.ent.ok &&& ~~~m, starting := s.ent.starting ||| m } }) ∧
  (∀ (s : State) (n : PortId) (l : List Bool), s.ent.starting.getLsbD n.val = true → l.length = 1024 → rctPasses none 0 l = true →
    aptFails l = false →
    ∃ t : State, exec (.classAStartupPass n l) s = .next t ∧ t = { s with ent := t.ent, pgs := t.pgs } ∧ PagesBut [4] s t ∧
      t.ent.ok = s.ent.ok ||| ((1 : BitVec 4) <<< n.val) ∧ t.ent.fail = s.ent.fail &&& ~~~((1 : BitVec 4) <<< n.val) ∧ t.ent.degraded = false ∧
      t.ent.starting = s.ent.starting &&& ~~~((1 : BitVec 4) <<< n.val) ∧
      t.ent.keyDrbg = (s.ent.keyDrbg || entropyRan s)) ∧
  (∀ (s : State) (c : Cl) (b : Fin 64) (ones : List Nat), s.tck.phase = .coppice → s.tck.trimPos ≤ c.val * 64 + b.val →
    let x := (mget (clusterAt s c.val).su.noise {} b.val).trim
    s.ent.trimLo ≤ x → x ≤ s.ent.trimHi →
    ∃ t : State, exec (.noiseTrimPass c b ones) s = .next t ∧ t.mem = s.mem ∧
      t.tck = { s.tck with trimPos := t.tck.trimPos, bgTrim := t.tck.bgTrim } ∧
      (b.val < 63 → t.tck.trimPos = c.val * 64 + b.val + 1 ∧ t.tck.bgTrim = true) ∧
      s.ent.trimLo ≤ (mget (clusterAt t c.val).su.noise {} b.val).trim ∧
      (mget (clusterAt t c.val).su.noise {} b.val).trim ≤ s.ent.trimHi ∧
      x - 1 ≤ (mget (clusterAt t c.val).su.noise {} b.val).trim ∧ (mget (clusterAt t c.val).su.noise {} b.val).trim ≤ x + 1 ∧
      (∀ d : Nat, d ≠ b.val → (mget (clusterAt t c.val).su.noise {} d).trim = (mget (clusterAt s c.val).su.noise {} d).trim)) ∧
  (∀ (s : State) (c : Cl) (b : Fin 64) (ones : List Nat), (s.tck.phase ≠ .coppice ∨ c.val * 64 + b.val < s.tck.trimPos) →
    exec (.noiseTrimPass c b ones) s = .next s)

/-- CHECKPOINT, in WORK of a hedge whose tick stands and with none outstanding, forms, once the hedge's arrays have run up to its cycle, the exact hedge energy of the next checkpoint of the plan and restarts the accept count (R211, R213). CHECKPOINT_RESULT makes a settled energy below the provisional best the new best, and otherwise keeps it (R215, R217). Where BAR0 may write the lead SUA page, SUA_STAGED_WRITE stages its parameter, those in effect unchanged, and BEST_CLR waits for the boundary (R215, R219). BOUNDARY_FRAME_RECEIVE from a peer of a RUNNING hedge applies the frame when it is accepted in OPEN up to 0.5 µs after t0, keeps it for the next OPEN otherwise, or counts it in SUA_XLATE when its tick is not newer than the last one applied (R32, R230); a group that is applied sets its 64 ghost slots. -/
def Obligations.annealing_runs : Prop :=
  (∀ (s : State) (h : InstId) (p : Nat × Bool),
    let i := instAt s h.val
    let s0 := advanceArrays s h.val p.1
    let i0 := instAt s0 h.val
    (planCheckpoints i)[i.ann.formed]? = some p → hedgeWorks s h.val = true → i.ann.due = none →
    ∃ (t : State) (k : Ckpt), exec (.checkpoint h) s = .next t ∧ t = { s0 with insts := t.insts, clusters := t.clusters } ∧
      InstsBut h.val s0 t ∧
      instAt t h.val = { i0 with ann := { i0.ann with due := some k, formed := i0.ann.formed + 1, countProv := i0.ann.countProv + 1 } } ∧
      k.cycle = p.1 ∧ k.energy = hedgeEnergy s0 i ∧ k.settled = p.2 ∧
      (∀ c, c ∈ clustersOf i → (clusterAt t c).su.ckptFlips = 0) ∧ (∀ c, c ∉ clustersOf i → clusterAt t c = clusterAt s0 c)) ∧
  (∀ (s : State) (h : InstId) (k : Ckpt),
    let i := instAt s h.val
    let new := k.settled && i.ann.eBestProv.all (fun b => decide (k.energy < b))
    let s0 := if new then advanceArrays s h.val (k.cycle + 3072) else s
    i.ann.due = some k → hedgeWorks s h.val = true →
    ∃ t : State, exec (.checkpointResult h) s = .next t ∧ t = { s0 with insts := t.insts, clusters := t.clusters } ∧
      InstsBut h.val s0 t ∧ (instAt t h.val).ann.due = none ∧ (instAt t h.val).ann.eCurProv = some k.energy ∧
      (instAt t h.val).ann.eBestProv = (if new then some k.energy else i.ann.eBestProv) ∧
      (instAt t h.val).ann.eBest = (instAt s0 h.val).ann.eBest ∧ (new = false → t.clusters = s.clusters)) ∧
  (∀ (s : State) (h : InstId) (off : BitVec 12) (v : Word) (p : AnnPar),
    let i := instAt s h.val
    formed i = true → Bar0 s (pgLeadSua i) →
    (stagePar (i.ann.staged.getD i.ann.par) off.toNat v = some p →
      ∃ t : State, exec (.suaStagedWrite h off v) s = .next t ∧ t = { s with insts := t.insts, pgs := t.pgs } ∧
        InstsBut h.val s t ∧ instAt t h.val = { i with ann := { i.ann with staged := some p } } ∧
        PagesBut [pgLeadSua i, pgLink s] s t) ∧
    (∃ t : State, exec (.bestClr h) s = .next t ∧ t = { s with insts := t.insts, pgs := t.pgs } ∧ InstsBut h.val s t ∧
      instAt t h.val = { i with ann := { i.ann with bestClr := true } } ∧ PagesBut [pgLeadSua i, pgLink s] s t)) ∧
  (∀ (s t0 : State) (n : PortId) (off : Nat) (p : KtPacket) (f h j : Nat),
    takeFrame s n.val (isKt fun p => p.typ == 3) = some (.kt p, t0) →
    checkPkt t0 n.val p = .ok f h → peerOf (instAt t0 h) n.val f = some j → (instAt s h).st = .running →
    let i := instAt s h
    let x := mget i.ann.peers {} j
    let late := x.applied.elim (decide (fullTick i.htick p.tick < 0)) (fun a => decide (fullTick i.htick p.tick ≤ a))
    let now := decide (s.tck.phase = .openP ∧ ticking s = true ∧ off ≤ 500)
    let full := (fullTick i.htick p.tick).toNat
    ∃ t : State, exec (.boundaryFrameReceive n off) s = .next t ∧ InstsBut h s t ∧ t.mem = s.mem ∧
      (late = true → t.clusters = s.clusters ∧ instAt t h = { i with ann := { i.ann with xLate := i.ann.xLate + 1 } }) ∧
      (late = false → now = false → t.clusters = s.clusters ∧
        instAt t h = { i with ann := { i.ann with peers := mset i.ann.peers {} j (keepFrame x full p.unlocked (frameGroups p)) } }) ∧
      (late = false → now = true →
        instAt t h = { i with ann := { i.ann with
          peers := mset i.ann.peers {} j { newest := none, applied := some full, got := true }
          unlocked := i.ann.unlocked || p.unlocked } })) ∧
  (∀ (i : Inst) (g : XGroup) (w : Word64) (s : State) (j : Nat), j < 64 →
    mget (clusterAt (ghostGroup i g w s) (globalId i g.loc)).su.received false (g.ghost + j) = w.getLsbD j)
end

