-- ==== Sys2Proof/Laws/Maps.lean ====
section
/-! SUPPORT. Laws/Maps.lean: what a read of a finite map gives after each write, and that every write keeps the canonical
form. -/

namespace Sys2Proof.Machine

variable {α : Type}

@[simp] theorem mget_nil (d : α) (k : Nat) : mget [] d k = d := rfl

theorem mget_minsert (m : FMap α) (d : α) (k : Nat) (v : α) (j : Nat) :
    mget (minsert m k v) d j = if j = k then v else mget m d j := by
  induction m with
  | nil => simp only [minsert, mget]; split <;> simp_all [eq_comm]
  | cons p t ih =>
    obtain ⟨i, w⟩ := p
    simp only [minsert]
    split
    · by_cases h : j = k
      · subst h; simp [mget]
      · have h' : ¬k = j := fun e => h e.symm
        simp [mget, h, h']
    · split
      · rename_i hik
        subst hik
        by_cases h : j = k
        · subst h; simp [mget]
        · have h' : ¬k = j := fun e => h e.symm
          simp [mget, h, h']
      · rename_i hik
        simp only [mget, ih]
        by_cases h : i = j
        · have : ¬j = k := fun e => hik (h.trans e).symm
          simp [h, this]
        · simp [h]

theorem mget_merase (m : FMap α) (d : α) (k j : Nat) :
    mget (merase m k) d j = if j = k then d else mget m d j := by
  induction m with
  | nil => simp [merase]
  | cons p t ih =>
    obtain ⟨i, w⟩ := p
    simp only [merase]
    split
    · rename_i hik
      rw [ih]
      by_cases h : j = k
      · simp [h]
      · have h' : ¬i = j := fun e => h (e.symm.trans hik)
        simp [mget, h, h']
    · rename_i hik
      simp only [mget, ih]
      by_cases h : i = j
      · have : ¬j = k := fun e => hik (h.trans e)
        simp [h, this]
      · simp [h]

/-- A read after a write gives the value written, and every other key is as before. -/
theorem mget_mset [DecidableEq α] (m : FMap α) (d : α) (k : Nat) (v : α) (j : Nat) :
    mget (mset m d k v) d j = if j = k then v else mget m d j := by
  unfold mset
  split
  · rw [mget_merase]; split <;> simp_all
  · exact mget_minsert m d k v j

theorem mget_mmod [DecidableEq α] (m : FMap α) (d : α) (k : Nat) (f : α → α) (j : Nat) :
    mget (mmod m d k f) d j = if j = k then f (mget m d k) else mget m d j := mget_mset m d k _ j

@[simp] theorem mget_mset_self [DecidableEq α] (m : FMap α) (d : α) (k : Nat) (v : α) :
    mget (mset m d k v) d k = v := by simp [mget_mset]

theorem mget_mset_ne [DecidableEq α] (m : FMap α) (d : α) {k j : Nat} (v : α) (h : j ≠ k) :
    mget (mset m d k v) d j = mget m d j := by simp [mget_mset, h]

/-- A map over values that keeps the default changes every key alike. -/
theorem mget_mmap [DecidableEq α] (d : α) (f : Nat → α → α) (m : FMap α) (k : Nat) (h : f k d = d) :
    mget (mmap d f m) d k = f k (mget m d k) := by
  induction m with
  | nil => simp [mmap, h]
  | cons p t ih =>
    obtain ⟨i, w⟩ := p
    simp only [mmap]
    split
    · rename_i hd
      rw [mget_merase, ih]
      by_cases e : i = k
      · subst e; simp [mget, hd]
      · have e' : ¬k = i := fun x => e x.symm
        simp [mget, e, e']
    · simp only [mget, ih]
      by_cases e : i = k
      · subst e; simp
      · simp [e]

theorem mget_mfilter (m : FMap α) (d : α) (p : Nat → Bool) (k : Nat) :
    mget (mfilter m p) d k = if p k then mget m d k else d := by
  unfold mfilter
  induction m with
  | nil => simp
  | cons q t ih =>
    obtain ⟨i, w⟩ := q
    simp only [List.filter_cons]
    by_cases e : i = k
    · subst e
      cases hp : p i <;> simp [mget, ih, hp]
    · split <;> simp [mget, ih, e]

/-! ### The canonical form -/

theorem risingFrom_mono {m : FMap α} {a b : Nat} (h : a ≤ b) : risingFrom b m → risingFrom a m := by
  cases m with
  | nil => simp [risingFrom]
  | cons p t => simp only [risingFrom]; intro ⟨h1, h2⟩; exact ⟨by omega, h2⟩

theorem rising_iff (lo : Nat) (m : FMap α) : rising lo m = true ↔ risingFrom lo m := by
  induction m generalizing lo with
  | nil => simp [rising, risingFrom]
  | cons p t ih => simp [rising, risingFrom, ih]

theorem risingFrom_minsert {m : FMap α} {lo k : Nat} (v : α) (hk : lo ≤ k) (h : risingFrom lo m) :
    risingFrom lo (minsert m k v) := by
  induction m generalizing lo with
  | nil => simp [minsert, risingFrom, hk]
  | cons p t ih =>
    obtain ⟨i, w⟩ := p
    simp only [risingFrom] at h
    simp only [minsert]
    split
    · exact ⟨hk, by omega, h.2⟩
    · split
      · subst_vars; exact ⟨hk, h.2⟩
      · exact ⟨h.1, ih (by omega) h.2⟩

theorem risingFrom_merase {m : FMap α} {lo : Nat} (k : Nat) (h : risingFrom lo m) : risingFrom lo (merase m k) := by
  induction m generalizing lo with
  | nil => simp [merase, risingFrom]
  | cons p t ih =>
    obtain ⟨i, w⟩ := p
    simp only [risingFrom] at h
    simp only [merase]
    split
    · exact ih (risingFrom_mono (by omega) h.2)
    · exact ⟨h.1, ih h.2⟩

theorem mem_minsert {m : FMap α} {k : Nat} {v : α} {p : Nat × α} (h : p ∈ minsert m k v) : p = (k, v) ∨ p ∈ m := by
  induction m with
  | nil => simpa [minsert] using h
  | cons q t ih =>
    obtain ⟨i, w⟩ := q
    simp only [minsert] at h
    split at h
    · simpa using h
    · split at h
      · simp only [List.mem_cons] at h ⊢; rcases h with h | h <;> simp [h]
      · simp only [List.mem_cons] at h ⊢
        rcases h with h | h
        · simp [h]
        · rcases ih h with h | h <;> simp [h]

theorem mem_merase {m : FMap α} {k : Nat} {p : Nat × α} (h : p ∈ merase m k) : p ∈ m := by
  induction m with
  | nil => simp [merase] at h
  | cons q t ih =>
    obtain ⟨i, w⟩ := q
    simp only [merase] at h
    split at h
    · exact List.mem_cons_of_mem _ (ih h)
    · simp only [List.mem_cons] at h ⊢; rcases h with h | h
      · exact .inl h
      · exact .inr (ih h)

/-- A write keeps the canonical form. -/
theorem canon_mset [DecidableEq α] {m : FMap α} {d : α} (k : Nat) (v : α) (h : Canon d m) : Canon d (mset m d k v) := by
  unfold mset
  split
  · exact ⟨risingFrom_merase k h.1, fun p hp => h.2 p (mem_merase hp)⟩
  · rename_i hv
    refine ⟨risingFrom_minsert v (Nat.zero_le _) h.1, fun p hp => ?_⟩
    rcases mem_minsert hp with rfl | hp
    · exact hv
    · exact h.2 p hp

theorem canon_nil (d : α) : Canon d ([] : FMap α) := by simp [Canon, risingFrom]

theorem risingFrom_filter {m : FMap α} {lo : Nat} (p : Nat × α → Bool) (h : risingFrom lo m) :
    risingFrom lo (m.filter p) := by
  induction m generalizing lo with
  | nil => simp [risingFrom]
  | cons q t ih =>
    obtain ⟨i, w⟩ := q
    simp only [risingFrom] at h
    simp only [List.filter_cons]
    split
    · exact ⟨h.1, ih h.2⟩
    · exact ih (risingFrom_mono (by omega) h.2)

theorem canon_filter {m : FMap α} {d : α} (p : Nat × α → Bool) (h : Canon d m) : Canon d (m.filter p) :=
  ⟨risingFrom_filter p h.1, fun q hq => h.2 q (List.mem_of_mem_filter hq)⟩

/-! ### Byte memories -/

theorem memory_wf_iff (m : Bytes) : Memory.wf m = true ↔ Canon 0 m := by
  simp [Memory.wf, Canon, rising_iff]

@[simp] theorem memory_wf_nil : Memory.wf [] = true := rfl

theorem memory_wf_setByte {m : Bytes} (a : Nat) (b : Byte) (h : Memory.wf m = true) :
    Memory.wf (setByte m a b) = true :=
  (memory_wf_iff _).2 (canon_mset a b ((memory_wf_iff m).1 h))

theorem memory_wf_writeBytes {m : Bytes} (a : Nat) (bs : List Byte) (h : Memory.wf m = true) :
    Memory.wf (writeBytes m a bs) = true := by
  induction bs generalizing m a with
  | nil => exact h
  | cons b t ih => exact ih (a + 1) (memory_wf_setByte a b h)

theorem memory_wf_clearBytes {m : Bytes} (a n : Nat) (h : Memory.wf m = true) :
    Memory.wf (clearBytes m a n) = true :=
  (memory_wf_iff _).2 (canon_filter _ ((memory_wf_iff m).1 h))

theorem memory_wf_copyBytes (src : Bytes) {m : Bytes} (a b n : Nat) (h : Memory.wf m = true) :
    Memory.wf (copyBytes src a m b n) = true := memory_wf_writeBytes b _ h

theorem memory_wf_writeLe {m : Bytes} (a n v : Nat) (h : Memory.wf m = true) : Memory.wf (writeLe m a n v) = true :=
  memory_wf_writeBytes a _ h

theorem byteAt_setByte (m : Bytes) (a : Nat) (b : Byte) (x : Nat) :
    byteAt (setByte m a b) x = if x = a then b else byteAt m x := mget_mset m 0 a b x

/-- A store of bytes: those bytes inside the range, every other byte as before. -/
theorem byteAt_writeBytes (m : Bytes) (a : Nat) (bs : List Byte) (x : Nat) :
    byteAt (writeBytes m a bs) x = if a ≤ x ∧ x < a + bs.length then bs.getD (x - a) 0 else byteAt m x := by
  induction bs generalizing m a with
  | nil => simp only [writeBytes, List.length_nil]; rw [if_neg (by omega)]
  | cons b t ih =>
    simp only [writeBytes, ih, byteAt_setByte, List.length_cons]
    by_cases h : x = a
    · subst h; simp
    · by_cases h2 : a + 1 ≤ x ∧ x < a + 1 + t.length
      · have h3 : a ≤ x ∧ x < a + (t.length + 1) := by omega
        have h4 : x - a = (x - (a + 1)) + 1 := by omega
        rw [if_pos h2, if_pos h3, h4]; simp
      · have h3 : ¬(a ≤ x ∧ x < a + (t.length + 1)) := by omega
        rw [if_neg h2, if_neg h3, if_neg h]

theorem byteAt_clearBytes (m : Bytes) (a n x : Nat) :
    byteAt (clearBytes m a n) x = if a ≤ x ∧ x < a + n then 0 else byteAt m x := by
  unfold byteAt clearBytes
  rw [mget_mfilter]
  by_cases h : x < a ∨ a + n ≤ x
  · rw [if_pos (by simpa using h), if_neg (by omega)]
  · rw [if_neg (by simpa using h), if_pos (by omega)]

@[simp] theorem leBytes_length (n v : Nat) : (leBytes n v).length = n := by
  induction n generalizing v with
  | zero => rfl
  | succ n ih => simp [leBytes, ih]

/-- Little-endian bytes read back as the value (R8). -/
theorem leNat_leBytes (n v : Nat) : leNat (leBytes n v) = v % 256 ^ n := by
  induction n generalizing v with
  | zero => simp [leBytes, leNat, Nat.mod_one]
  | succ n ih =>
    have h : (BitVec.ofNat 8 v).toNat = v % 256 := BitVec.toNat_ofNat v 8
    rw [leBytes, leNat, ih, h, Nat.pow_succ', Nat.mod_mul]

end Sys2Proof.Machine
end

