-- ==== Sys2Proof/Laws/State.lean ====
section
/-! SUPPORT. Laws/State.lean: what each named update of State does to each field: the one it writes, and every other, which
it leaves alone. Each conjunct is a rewrite rule of simp, so no later proof unfolds a record update. -/

namespace Sys2Proof.Machine

@[simp] theorem setCluster_fields (s : State) (c : Nat) (k : Cluster) :
    (setCluster s c k).pending = s.pending ∧ (setCluster s c k).fresh = s.fresh ∧ (setCluster s c k).out = s.out ∧
    (setCluster s c k).pgs = s.pgs ∧ (setCluster s c k).tck = s.tck ∧ (setCluster s c k).cals = s.cals ∧
    (setCluster s c k).calCtl = s.calCtl ∧ (setCluster s c k).insts = s.insts ∧
    (setCluster s c k).staged = s.staged ∧ (setCluster s c k).clusters = mset s.clusters {} c k ∧
    (setCluster s c k).fabric = s.fabric ∧ (setCluster s c k).mem = s.mem ∧ (setCluster s c k).poison = s.poison ∧
    (setCluster s c k).hbm = s.hbm ∧ (setCluster s c k).rings = s.rings ∧ (setCluster s c k).xfers = s.xfers ∧
    (setCluster s c k).nextXfer = s.nextXfer ∧ (setCluster s c k).pci = s.pci ∧
    (setCluster s c k).failedOver = s.failedOver ∧ (setCluster s c k).hiLatch = s.hiLatch ∧
    (setCluster s c k).loHeld = s.loHeld ∧ (setCluster s c k).regQueue = s.regQueue ∧
    (setCluster s c k).eth = s.eth ∧ (setCluster s c k).ktp = s.ktp ∧ (setCluster s c k).ptp = s.ptp ∧
    (setCluster s c k).sns = s.sns ∧ (setCluster s c k).ent = s.ent ∧ (setCluster s c k).sup = s.sup ∧
    (setCluster s c k).errs = s.errs ∧ (setCluster s c k).avs = s.avs ∧ (setCluster s c k).avsDev = s.avsDev ∧
    (setCluster s c k).pwr = s.pwr ∧ (setCluster s c k).thm = s.thm ∧ (setCluster s c k).glb = s.glb ∧
    (setCluster s c k).tel = s.tel ∧ (setCluster s c k).nextFrame = s.nextFrame ∧
    (setCluster s c k).epoch = s.epoch ∧ (setCluster s c k).nets = s.nets ∧
    (setCluster s c k).deliveries = s.deliveries := by
  and_intros <;> rfl

@[simp] theorem modCluster_fields (s : State) (c : Nat) (f : Cluster → Cluster) :
    (modCluster s c f).pending = s.pending ∧ (modCluster s c f).fresh = s.fresh ∧ (modCluster s c f).out = s.out ∧
    (modCluster s c f).pgs = s.pgs ∧ (modCluster s c f).tck = s.tck ∧ (modCluster s c f).cals = s.cals ∧
    (modCluster s c f).calCtl = s.calCtl ∧ (modCluster s c f).insts = s.insts ∧
    (modCluster s c f).staged = s.staged ∧ (modCluster s c f).clusters = mset s.clusters {} c (f (clusterAt s c)) ∧
    (modCluster s c f).fabric = s.fabric ∧ (modCluster s c f).mem = s.mem ∧ (modCluster s c f).poison = s.poison ∧
    (modCluster s c f).hbm = s.hbm ∧ (modCluster s c f).rings = s.rings ∧ (modCluster s c f).xfers = s.xfers ∧
    (modCluster s c f).nextXfer = s.nextXfer ∧ (modCluster s c f).pci = s.pci ∧
    (modCluster s c f).failedOver = s.failedOver ∧ (modCluster s c f).hiLatch = s.hiLatch ∧
    (modCluster s c f).loHeld = s.loHeld ∧ (modCluster s c f).regQueue = s.regQueue ∧
    (modCluster s c f).eth = s.eth ∧ (modCluster s c f).ktp = s.ktp ∧ (modCluster s c f).ptp = s.ptp ∧
    (modCluster s c f).sns = s.sns ∧ (modCluster s c f).ent = s.ent ∧ (modCluster s c f).sup = s.sup ∧
    (modCluster s c f).errs = s.errs ∧ (modCluster s c f).avs = s.avs ∧ (modCluster s c f).avsDev = s.avsDev ∧
    (modCluster s c f).pwr = s.pwr ∧ (modCluster s c f).thm = s.thm ∧ (modCluster s c f).glb = s.glb ∧
    (modCluster s c f).tel = s.tel ∧ (modCluster s c f).nextFrame = s.nextFrame ∧
    (modCluster s c f).epoch = s.epoch ∧ (modCluster s c f).nets = s.nets ∧
    (modCluster s c f).deliveries = s.deliveries := by
  and_intros <;> rfl

@[simp] theorem setInst_fields (s : State) (i : Nat) (x : Inst) :
    (setInst s i x).pending = s.pending ∧ (setInst s i x).fresh = s.fresh ∧ (setInst s i x).out = s.out ∧
    (setInst s i x).pgs = s.pgs ∧ (setInst s i x).tck = s.tck ∧ (setInst s i x).cals = s.cals ∧
    (setInst s i x).calCtl = s.calCtl ∧ (setInst s i x).insts = mset s.insts {} i x ∧
    (setInst s i x).staged = s.staged ∧ (setInst s i x).clusters = s.clusters ∧ (setInst s i x).fabric = s.fabric ∧
    (setInst s i x).mem = s.mem ∧ (setInst s i x).poison = s.poison ∧ (setInst s i x).hbm = s.hbm ∧
    (setInst s i x).rings = s.rings ∧ (setInst s i x).xfers = s.xfers ∧ (setInst s i x).nextXfer = s.nextXfer ∧
    (setInst s i x).pci = s.pci ∧ (setInst s i x).failedOver = s.failedOver ∧ (setInst s i x).hiLatch = s.hiLatch ∧
    (setInst s i x).loHeld = s.loHeld ∧ (setInst s i x).regQueue = s.regQueue ∧ (setInst s i x).eth = s.eth ∧
    (setInst s i x).ktp = s.ktp ∧ (setInst s i x).ptp = s.ptp ∧ (setInst s i x).sns = s.sns ∧
    (setInst s i x).ent = s.ent ∧ (setInst s i x).sup = s.sup ∧ (setInst s i x).errs = s.errs ∧
    (setInst s i x).avs = s.avs ∧ (setInst s i x).avsDev = s.avsDev ∧ (setInst s i x).pwr = s.pwr ∧
    (setInst s i x).thm = s.thm ∧ (setInst s i x).glb = s.glb ∧ (setInst s i x).tel = s.tel ∧
    (setInst s i x).nextFrame = s.nextFrame ∧ (setInst s i x).epoch = s.epoch ∧ (setInst s i x).nets = s.nets ∧
    (setInst s i x).deliveries = s.deliveries := by
  and_intros <;> rfl

@[simp] theorem modInst_fields (s : State) (i : Nat) (f : Inst → Inst) :
    (modInst s i f).pending = s.pending ∧ (modInst s i f).fresh = s.fresh ∧ (modInst s i f).out = s.out ∧
    (modInst s i f).pgs = s.pgs ∧ (modInst s i f).tck = s.tck ∧ (modInst s i f).cals = s.cals ∧
    (modInst s i f).calCtl = s.calCtl ∧ (modInst s i f).insts = mset s.insts {} i (f (instAt s i)) ∧
    (modInst s i f).staged = s.staged ∧ (modInst s i f).clusters = s.clusters ∧ (modInst s i f).fabric = s.fabric ∧
    (modInst s i f).mem = s.mem ∧ (modInst s i f).poison = s.poison ∧ (modInst s i f).hbm = s.hbm ∧
    (modInst s i f).rings = s.rings ∧ (modInst s i f).xfers = s.xfers ∧ (modInst s i f).nextXfer = s.nextXfer ∧
    (modInst s i f).pci = s.pci ∧ (modInst s i f).failedOver = s.failedOver ∧ (modInst s i f).hiLatch = s.hiLatch ∧
    (modInst s i f).loHeld = s.loHeld ∧ (modInst s i f).regQueue = s.regQueue ∧ (modInst s i f).eth = s.eth ∧
    (modInst s i f).ktp = s.ktp ∧ (modInst s i f).ptp = s.ptp ∧ (modInst s i f).sns = s.sns ∧
    (modInst s i f).ent = s.ent ∧ (modInst s i f).sup = s.sup ∧ (modInst s i f).errs = s.errs ∧
    (modInst s i f).avs = s.avs ∧ (modInst s i f).avsDev = s.avsDev ∧ (modInst s i f).pwr = s.pwr ∧
    (modInst s i f).thm = s.thm ∧ (modInst s i f).glb = s.glb ∧ (modInst s i f).tel = s.tel ∧
    (modInst s i f).nextFrame = s.nextFrame ∧ (modInst s i f).epoch = s.epoch ∧ (modInst s i f).nets = s.nets ∧
    (modInst s i f).deliveries = s.deliveries := by
  and_intros <;> rfl

@[simp] theorem setCal_fields (s : State) (c : Nat) (x : Cal) :
    (setCal s c x).pending = s.pending ∧ (setCal s c x).fresh = s.fresh ∧ (setCal s c x).out = s.out ∧
    (setCal s c x).pgs = s.pgs ∧ (setCal s c x).tck = s.tck ∧ (setCal s c x).cals = mset s.cals {} c x ∧
    (setCal s c x).calCtl = s.calCtl ∧ (setCal s c x).insts = s.insts ∧ (setCal s c x).staged = s.staged ∧
    (setCal s c x).clusters = s.clusters ∧ (setCal s c x).fabric = s.fabric ∧ (setCal s c x).mem = s.mem ∧
    (setCal s c x).poison = s.poison ∧ (setCal s c x).hbm = s.hbm ∧ (setCal s c x).rings = s.rings ∧
    (setCal s c x).xfers = s.xfers ∧ (setCal s c x).nextXfer = s.nextXfer ∧ (setCal s c x).pci = s.pci ∧
    (setCal s c x).failedOver = s.failedOver ∧ (setCal s c x).hiLatch = s.hiLatch ∧
    (setCal s c x).loHeld = s.loHeld ∧ (setCal s c x).regQueue = s.regQueue ∧ (setCal s c x).eth = s.eth ∧
    (setCal s c x).ktp = s.ktp ∧ (setCal s c x).ptp = s.ptp ∧ (setCal s c x).sns = s.sns ∧
    (setCal s c x).ent = s.ent ∧ (setCal s c x).sup = s.sup ∧ (setCal s c x).errs = s.errs ∧
    (setCal s c x).avs = s.avs ∧ (setCal s c x).avsDev = s.avsDev ∧ (setCal s c x).pwr = s.pwr ∧
    (setCal s c x).thm = s.thm ∧ (setCal s c x).glb = s.glb ∧ (setCal s c x).tel = s.tel ∧
    (setCal s c x).nextFrame = s.nextFrame ∧ (setCal s c x).epoch = s.epoch ∧ (setCal s c x).nets = s.nets ∧
    (setCal s c x).deliveries = s.deliveries := by
  and_intros <;> rfl

@[simp] theorem modCal_fields (s : State) (c : Nat) (f : Cal → Cal) :
    (modCal s c f).pending = s.pending ∧ (modCal s c f).fresh = s.fresh ∧ (modCal s c f).out = s.out ∧
    (modCal s c f).pgs = s.pgs ∧ (modCal s c f).tck = s.tck ∧
    (modCal s c f).cals = mset s.cals {} c (f (calAt s c)) ∧ (modCal s c f).calCtl = s.calCtl ∧
    (modCal s c f).insts = s.insts ∧ (modCal s c f).staged = s.staged ∧ (modCal s c f).clusters = s.clusters ∧
    (modCal s c f).fabric = s.fabric ∧ (modCal s c f).mem = s.mem ∧ (modCal s c f).poison = s.poison ∧
    (modCal s c f).hbm = s.hbm ∧ (modCal s c f).rings = s.rings ∧ (modCal s c f).xfers = s.xfers ∧
    (modCal s c f).nextXfer = s.nextXfer ∧ (modCal s c f).pci = s.pci ∧ (modCal s c f).failedOver = s.failedOver ∧
    (modCal s c f).hiLatch = s.hiLatch ∧ (modCal s c f).loHeld = s.loHeld ∧ (modCal s c f).regQueue = s.regQueue ∧
    (modCal s c f).eth = s.eth ∧ (modCal s c f).ktp = s.ktp ∧ (modCal s c f).ptp = s.ptp ∧
    (modCal s c f).sns = s.sns ∧ (modCal s c f).ent = s.ent ∧ (modCal s c f).sup = s.sup ∧
    (modCal s c f).errs = s.errs ∧ (modCal s c f).avs = s.avs ∧ (modCal s c f).avsDev = s.avsDev ∧
    (modCal s c f).pwr = s.pwr ∧ (modCal s c f).thm = s.thm ∧ (modCal s c f).glb = s.glb ∧
    (modCal s c f).tel = s.tel ∧ (modCal s c f).nextFrame = s.nextFrame ∧ (modCal s c f).epoch = s.epoch ∧
    (modCal s c f).nets = s.nets ∧ (modCal s c f).deliveries = s.deliveries := by
  and_intros <;> rfl

@[simp] theorem setRing_fields (s : State) (r : Nat) (x : Ring) :
    (setRing s r x).pending = s.pending ∧ (setRing s r x).fresh = s.fresh ∧ (setRing s r x).out = s.out ∧
    (setRing s r x).pgs = s.pgs ∧ (setRing s r x).tck = s.tck ∧ (setRing s r x).cals = s.cals ∧
    (setRing s r x).calCtl = s.calCtl ∧ (setRing s r x).insts = s.insts ∧ (setRing s r x).staged = s.staged ∧
    (setRing s r x).clusters = s.clusters ∧ (setRing s r x).fabric = s.fabric ∧ (setRing s r x).mem = s.mem ∧
    (setRing s r x).poison = s.poison ∧ (setRing s r x).hbm = s.hbm ∧ (setRing s r x).rings = mset s.rings {} r x ∧
    (setRing s r x).xfers = s.xfers ∧ (setRing s r x).nextXfer = s.nextXfer ∧ (setRing s r x).pci = s.pci ∧
    (setRing s r x).failedOver = s.failedOver ∧ (setRing s r x).hiLatch = s.hiLatch ∧
    (setRing s r x).loHeld = s.loHeld ∧ (setRing s r x).regQueue = s.regQueue ∧ (setRing s r x).eth = s.eth ∧
    (setRing s r x).ktp = s.ktp ∧ (setRing s r x).ptp = s.ptp ∧ (setRing s r x).sns = s.sns ∧
    (setRing s r x).ent = s.ent ∧ (setRing s r x).sup = s.sup ∧ (setRing s r x).errs = s.errs ∧
    (setRing s r x).avs = s.avs ∧ (setRing s r x).avsDev = s.avsDev ∧ (setRing s r x).pwr = s.pwr ∧
    (setRing s r x).thm = s.thm ∧ (setRing s r x).glb = s.glb ∧ (setRing s r x).tel = s.tel ∧
    (setRing s r x).nextFrame = s.nextFrame ∧ (setRing s r x).epoch = s.epoch ∧ (setRing s r x).nets = s.nets ∧
    (setRing s r x).deliveries = s.deliveries := by
  and_intros <;> rfl

@[simp] theorem modRing_fields (s : State) (r : Nat) (f : Ring → Ring) :
    (modRing s r f).pending = s.pending ∧ (modRing s r f).fresh = s.fresh ∧ (modRing s r f).out = s.out ∧
    (modRing s r f).pgs = s.pgs ∧ (modRing s r f).tck = s.tck ∧ (modRing s r f).cals = s.cals ∧
    (modRing s r f).calCtl = s.calCtl ∧ (modRing s r f).insts = s.insts ∧ (modRing s r f).staged = s.staged ∧
    (modRing s r f).clusters = s.clusters ∧ (modRing s r f).fabric = s.fabric ∧ (modRing s r f).mem = s.mem ∧
    (modRing s r f).poison = s.poison ∧ (modRing s r f).hbm = s.hbm ∧
    (modRing s r f).rings = mset s.rings {} r (f (ringAt s r)) ∧ (modRing s r f).xfers = s.xfers ∧
    (modRing s r f).nextXfer = s.nextXfer ∧ (modRing s r f).pci = s.pci ∧ (modRing s r f).failedOver = s.failedOver ∧
    (modRing s r f).hiLatch = s.hiLatch ∧ (modRing s r f).loHeld = s.loHeld ∧ (modRing s r f).regQueue = s.regQueue ∧
    (modRing s r f).eth = s.eth ∧ (modRing s r f).ktp = s.ktp ∧ (modRing s r f).ptp = s.ptp ∧
    (modRing s r f).sns = s.sns ∧ (modRing s r f).ent = s.ent ∧ (modRing s r f).sup = s.sup ∧
    (modRing s r f).errs = s.errs ∧ (modRing s r f).avs = s.avs ∧ (modRing s r f).avsDev = s.avsDev ∧
    (modRing s r f).pwr = s.pwr ∧ (modRing s r f).thm = s.thm ∧ (modRing s r f).glb = s.glb ∧
    (modRing s r f).tel = s.tel ∧ (modRing s r f).nextFrame = s.nextFrame ∧ (modRing s r f).epoch = s.epoch ∧
    (modRing s r f).nets = s.nets ∧ (modRing s r f).deliveries = s.deliveries := by
  and_intros <;> rfl

@[simp] theorem modStack_fields (s : State) (d : Nat) (f : Stack → Stack) :
    (modStack s d f).pending = s.pending ∧ (modStack s d f).fresh = s.fresh ∧ (modStack s d f).out = s.out ∧
    (modStack s d f).pgs = s.pgs ∧ (modStack s d f).tck = s.tck ∧ (modStack s d f).cals = s.cals ∧
    (modStack s d f).calCtl = s.calCtl ∧ (modStack s d f).insts = s.insts ∧ (modStack s d f).staged = s.staged ∧
    (modStack s d f).clusters = s.clusters ∧ (modStack s d f).fabric = s.fabric ∧ (modStack s d f).mem = s.mem ∧
    (modStack s d f).poison = s.poison ∧ (modStack s d f).hbm = mmod s.hbm {} d f ∧
    (modStack s d f).rings = s.rings ∧ (modStack s d f).xfers = s.xfers ∧ (modStack s d f).nextXfer = s.nextXfer ∧
    (modStack s d f).pci = s.pci ∧ (modStack s d f).failedOver = s.failedOver ∧
    (modStack s d f).hiLatch = s.hiLatch ∧ (modStack s d f).loHeld = s.loHeld ∧
    (modStack s d f).regQueue = s.regQueue ∧ (modStack s d f).eth = s.eth ∧ (modStack s d f).ktp = s.ktp ∧
    (modStack s d f).ptp = s.ptp ∧ (modStack s d f).sns = s.sns ∧ (modStack s d f).ent = s.ent ∧
    (modStack s d f).sup = s.sup ∧ (modStack s d f).errs = s.errs ∧ (modStack s d f).avs = s.avs ∧
    (modStack s d f).avsDev = s.avsDev ∧ (modStack s d f).pwr = s.pwr ∧ (modStack s d f).thm = s.thm ∧
    (modStack s d f).glb = s.glb ∧ (modStack s d f).tel = s.tel ∧ (modStack s d f).nextFrame = s.nextFrame ∧
    (modStack s d f).epoch = s.epoch ∧ (modStack s d f).nets = s.nets ∧
    (modStack s d f).deliveries = s.deliveries := by
  and_intros <;> rfl

@[simp] theorem modPci_fields (s : State) (n : Nat) (f : Pci → Pci) :
    (modPci s n f).pending = s.pending ∧ (modPci s n f).fresh = s.fresh ∧ (modPci s n f).out = s.out ∧
    (modPci s n f).pgs = s.pgs ∧ (modPci s n f).tck = s.tck ∧ (modPci s n f).cals = s.cals ∧
    (modPci s n f).calCtl = s.calCtl ∧ (modPci s n f).insts = s.insts ∧ (modPci s n f).staged = s.staged ∧
    (modPci s n f).clusters = s.clusters ∧ (modPci s n f).fabric = s.fabric ∧ (modPci s n f).mem = s.mem ∧
    (modPci s n f).poison = s.poison ∧ (modPci s n f).hbm = s.hbm ∧ (modPci s n f).rings = s.rings ∧
    (modPci s n f).xfers = s.xfers ∧ (modPci s n f).nextXfer = s.nextXfer ∧ (modPci s n f).pci = mmod s.pci {} n f ∧
    (modPci s n f).failedOver = s.failedOver ∧ (modPci s n f).hiLatch = s.hiLatch ∧
    (modPci s n f).loHeld = s.loHeld ∧ (modPci s n f).regQueue = s.regQueue ∧ (modPci s n f).eth = s.eth ∧
    (modPci s n f).ktp = s.ktp ∧ (modPci s n f).ptp = s.ptp ∧ (modPci s n f).sns = s.sns ∧
    (modPci s n f).ent = s.ent ∧ (modPci s n f).sup = s.sup ∧ (modPci s n f).errs = s.errs ∧
    (modPci s n f).avs = s.avs ∧ (modPci s n f).avsDev = s.avsDev ∧ (modPci s n f).pwr = s.pwr ∧
    (modPci s n f).thm = s.thm ∧ (modPci s n f).glb = s.glb ∧ (modPci s n f).tel = s.tel ∧
    (modPci s n f).nextFrame = s.nextFrame ∧ (modPci s n f).epoch = s.epoch ∧ (modPci s n f).nets = s.nets ∧
    (modPci s n f).deliveries = s.deliveries := by
  and_intros <;> rfl

@[simp] theorem modEth_fields (s : State) (n : Nat) (f : Eth → Eth) :
    (modEth s n f).pending = s.pending ∧ (modEth s n f).fresh = s.fresh ∧ (modEth s n f).out = s.out ∧
    (modEth s n f).pgs = s.pgs ∧ (modEth s n f).tck = s.tck ∧ (modEth s n f).cals = s.cals ∧
    (modEth s n f).calCtl = s.calCtl ∧ (modEth s n f).insts = s.insts ∧ (modEth s n f).staged = s.staged ∧
    (modEth s n f).clusters = s.clusters ∧ (modEth s n f).fabric = s.fabric ∧ (modEth s n f).mem = s.mem ∧
    (modEth s n f).poison = s.poison ∧ (modEth s n f).hbm = s.hbm ∧ (modEth s n f).rings = s.rings ∧
    (modEth s n f).xfers = s.xfers ∧ (modEth s n f).nextXfer = s.nextXfer ∧ (modEth s n f).pci = s.pci ∧
    (modEth s n f).failedOver = s.failedOver ∧ (modEth s n f).hiLatch = s.hiLatch ∧
    (modEth s n f).loHeld = s.loHeld ∧ (modEth s n f).regQueue = s.regQueue ∧
    (modEth s n f).eth = mmod s.eth {} n f ∧ (modEth s n f).ktp = s.ktp ∧ (modEth s n f).ptp = s.ptp ∧
    (modEth s n f).sns = s.sns ∧ (modEth s n f).ent = s.ent ∧ (modEth s n f).sup = s.sup ∧
    (modEth s n f).errs = s.errs ∧ (modEth s n f).avs = s.avs ∧ (modEth s n f).avsDev = s.avsDev ∧
    (modEth s n f).pwr = s.pwr ∧ (modEth s n f).thm = s.thm ∧ (modEth s n f).glb = s.glb ∧
    (modEth s n f).tel = s.tel ∧ (modEth s n f).nextFrame = s.nextFrame ∧ (modEth s n f).epoch = s.epoch ∧
    (modEth s n f).nets = s.nets ∧ (modEth s n f).deliveries = s.deliveries := by
  and_intros <;> rfl

@[simp] theorem modKtp_fields (s : State) (n : Nat) (f : Ktp → Ktp) :
    (modKtp s n f).pending = s.pending ∧ (modKtp s n f).fresh = s.fresh ∧ (modKtp s n f).out = s.out ∧
    (modKtp s n f).pgs = s.pgs ∧ (modKtp s n f).tck = s.tck ∧ (modKtp s n f).cals = s.cals ∧
    (modKtp s n f).calCtl = s.calCtl ∧ (modKtp s n f).insts = s.insts ∧ (modKtp s n f).staged = s.staged ∧
    (modKtp s n f).clusters = s.clusters ∧ (modKtp s n f).fabric = s.fabric ∧ (modKtp s n f).mem = s.mem ∧
    (modKtp s n f).poison = s.poison ∧ (modKtp s n f).hbm = s.hbm ∧ (modKtp s n f).rings = s.rings ∧
    (modKtp s n f).xfers = s.xfers ∧ (modKtp s n f).nextXfer = s.nextXfer ∧ (modKtp s n f).pci = s.pci ∧
    (modKtp s n f).failedOver = s.failedOver ∧ (modKtp s n f).hiLatch = s.hiLatch ∧
    (modKtp s n f).loHeld = s.loHeld ∧ (modKtp s n f).regQueue = s.regQueue ∧ (modKtp s n f).eth = s.eth ∧
    (modKtp s n f).ktp = mmod s.ktp {} n f ∧ (modKtp s n f).ptp = s.ptp ∧ (modKtp s n f).sns = s.sns ∧
    (modKtp s n f).ent = s.ent ∧ (modKtp s n f).sup = s.sup ∧ (modKtp s n f).errs = s.errs ∧
    (modKtp s n f).avs = s.avs ∧ (modKtp s n f).avsDev = s.avsDev ∧ (modKtp s n f).pwr = s.pwr ∧
    (modKtp s n f).thm = s.thm ∧ (modKtp s n f).glb = s.glb ∧ (modKtp s n f).tel = s.tel ∧
    (modKtp s n f).nextFrame = s.nextFrame ∧ (modKtp s n f).epoch = s.epoch ∧ (modKtp s n f).nets = s.nets ∧
    (modKtp s n f).deliveries = s.deliveries := by
  and_intros <;> rfl

@[simp] theorem modSns_fields (s : State) (n : Nat) (f : Sns → Sns) :
    (modSns s n f).pending = s.pending ∧ (modSns s n f).fresh = s.fresh ∧ (modSns s n f).out = s.out ∧
    (modSns s n f).pgs = s.pgs ∧ (modSns s n f).tck = s.tck ∧ (modSns s n f).cals = s.cals ∧
    (modSns s n f).calCtl = s.calCtl ∧ (modSns s n f).insts = s.insts ∧ (modSns s n f).staged = s.staged ∧
    (modSns s n f).clusters = s.clusters ∧ (modSns s n f).fabric = s.fabric ∧ (modSns s n f).mem = s.mem ∧
    (modSns s n f).poison = s.poison ∧ (modSns s n f).hbm = s.hbm ∧ (modSns s n f).rings = s.rings ∧
    (modSns s n f).xfers = s.xfers ∧ (modSns s n f).nextXfer = s.nextXfer ∧ (modSns s n f).pci = s.pci ∧
    (modSns s n f).failedOver = s.failedOver ∧ (modSns s n f).hiLatch = s.hiLatch ∧
    (modSns s n f).loHeld = s.loHeld ∧ (modSns s n f).regQueue = s.regQueue ∧ (modSns s n f).eth = s.eth ∧
    (modSns s n f).ktp = s.ktp ∧ (modSns s n f).ptp = s.ptp ∧ (modSns s n f).sns = mmod s.sns {} n f ∧
    (modSns s n f).ent = s.ent ∧ (modSns s n f).sup = s.sup ∧ (modSns s n f).errs = s.errs ∧
    (modSns s n f).avs = s.avs ∧ (modSns s n f).avsDev = s.avsDev ∧ (modSns s n f).pwr = s.pwr ∧
    (modSns s n f).thm = s.thm ∧ (modSns s n f).glb = s.glb ∧ (modSns s n f).tel = s.tel ∧
    (modSns s n f).nextFrame = s.nextFrame ∧ (modSns s n f).epoch = s.epoch ∧ (modSns s n f).nets = s.nets ∧
    (modSns s n f).deliveries = s.deliveries := by
  and_intros <;> rfl

@[simp] theorem modSup_fields (s : State) (n : Nat) (f : Sup → Sup) :
    (modSup s n f).pending = s.pending ∧ (modSup s n f).fresh = s.fresh ∧ (modSup s n f).out = s.out ∧
    (modSup s n f).pgs = s.pgs ∧ (modSup s n f).tck = s.tck ∧ (modSup s n f).cals = s.cals ∧
    (modSup s n f).calCtl = s.calCtl ∧ (modSup s n f).insts = s.insts ∧ (modSup s n f).staged = s.staged ∧
    (modSup s n f).clusters = s.clusters ∧ (modSup s n f).fabric = s.fabric ∧ (modSup s n f).mem = s.mem ∧
    (modSup s n f).poison = s.poison ∧ (modSup s n f).hbm = s.hbm ∧ (modSup s n f).rings = s.rings ∧
    (modSup s n f).xfers = s.xfers ∧ (modSup s n f).nextXfer = s.nextXfer ∧ (modSup s n f).pci = s.pci ∧
    (modSup s n f).failedOver = s.failedOver ∧ (modSup s n f).hiLatch = s.hiLatch ∧
    (modSup s n f).loHeld = s.loHeld ∧ (modSup s n f).regQueue = s.regQueue ∧ (modSup s n f).eth = s.eth ∧
    (modSup s n f).ktp = s.ktp ∧ (modSup s n f).ptp = s.ptp ∧ (modSup s n f).sns = s.sns ∧
    (modSup s n f).ent = s.ent ∧ (modSup s n f).sup = mmod s.sup {} n f ∧ (modSup s n f).errs = s.errs ∧
    (modSup s n f).avs = s.avs ∧ (modSup s n f).avsDev = s.avsDev ∧ (modSup s n f).pwr = s.pwr ∧
    (modSup s n f).thm = s.thm ∧ (modSup s n f).glb = s.glb ∧ (modSup s n f).tel = s.tel ∧
    (modSup s n f).nextFrame = s.nextFrame ∧ (modSup s n f).epoch = s.epoch ∧ (modSup s n f).nets = s.nets ∧
    (modSup s n f).deliveries = s.deliveries := by
  and_intros <;> rfl

@[simp] theorem modAvs_fields (s : State) (n : Nat) (f : Avs → Avs) :
    (modAvs s n f).pending = s.pending ∧ (modAvs s n f).fresh = s.fresh ∧ (modAvs s n f).out = s.out ∧
    (modAvs s n f).pgs = s.pgs ∧ (modAvs s n f).tck = s.tck ∧ (modAvs s n f).cals = s.cals ∧
    (modAvs s n f).calCtl = s.calCtl ∧ (modAvs s n f).insts = s.insts ∧ (modAvs s n f).staged = s.staged ∧
    (modAvs s n f).clusters = s.clusters ∧ (modAvs s n f).fabric = s.fabric ∧ (modAvs s n f).mem = s.mem ∧
    (modAvs s n f).poison = s.poison ∧ (modAvs s n f).hbm = s.hbm ∧ (modAvs s n f).rings = s.rings ∧
    (modAvs s n f).xfers = s.xfers ∧ (modAvs s n f).nextXfer = s.nextXfer ∧ (modAvs s n f).pci = s.pci ∧
    (modAvs s n f).failedOver = s.failedOver ∧ (modAvs s n f).hiLatch = s.hiLatch ∧
    (modAvs s n f).loHeld = s.loHeld ∧ (modAvs s n f).regQueue = s.regQueue ∧ (modAvs s n f).eth = s.eth ∧
    (modAvs s n f).ktp = s.ktp ∧ (modAvs s n f).ptp = s.ptp ∧ (modAvs s n f).sns = s.sns ∧
    (modAvs s n f).ent = s.ent ∧ (modAvs s n f).sup = s.sup ∧ (modAvs s n f).errs = s.errs ∧
    (modAvs s n f).avs = mmod s.avs {} n f ∧ (modAvs s n f).avsDev = s.avsDev ∧ (modAvs s n f).pwr = s.pwr ∧
    (modAvs s n f).thm = s.thm ∧ (modAvs s n f).glb = s.glb ∧ (modAvs s n f).tel = s.tel ∧
    (modAvs s n f).nextFrame = s.nextFrame ∧ (modAvs s n f).epoch = s.epoch ∧ (modAvs s n f).nets = s.nets ∧
    (modAvs s n f).deliveries = s.deliveries := by
  and_intros <;> rfl

@[simp] theorem modD2d_fields (s : State) (m : Nat) (f : D2d → D2d) :
    (modD2d s m f).pending = s.pending ∧ (modD2d s m f).fresh = s.fresh ∧ (modD2d s m f).out = s.out ∧
    (modD2d s m f).pgs = s.pgs ∧ (modD2d s m f).tck = s.tck ∧ (modD2d s m f).cals = s.cals ∧
    (modD2d s m f).calCtl = s.calCtl ∧ (modD2d s m f).insts = s.insts ∧ (modD2d s m f).staged = s.staged ∧
    (modD2d s m f).clusters = s.clusters ∧
    (modD2d s m f).fabric = { s.fabric with d2d := mmod s.fabric.d2d {} m f } ∧ (modD2d s m f).mem = s.mem ∧
    (modD2d s m f).poison = s.poison ∧ (modD2d s m f).hbm = s.hbm ∧ (modD2d s m f).rings = s.rings ∧
    (modD2d s m f).xfers = s.xfers ∧ (modD2d s m f).nextXfer = s.nextXfer ∧ (modD2d s m f).pci = s.pci ∧
    (modD2d s m f).failedOver = s.failedOver ∧ (modD2d s m f).hiLatch = s.hiLatch ∧
    (modD2d s m f).loHeld = s.loHeld ∧ (modD2d s m f).regQueue = s.regQueue ∧ (modD2d s m f).eth = s.eth ∧
    (modD2d s m f).ktp = s.ktp ∧ (modD2d s m f).ptp = s.ptp ∧ (modD2d s m f).sns = s.sns ∧
    (modD2d s m f).ent = s.ent ∧ (modD2d s m f).sup = s.sup ∧ (modD2d s m f).errs = s.errs ∧
    (modD2d s m f).avs = s.avs ∧ (modD2d s m f).avsDev = s.avsDev ∧ (modD2d s m f).pwr = s.pwr ∧
    (modD2d s m f).thm = s.thm ∧ (modD2d s m f).glb = s.glb ∧ (modD2d s m f).tel = s.tel ∧
    (modD2d s m f).nextFrame = s.nextFrame ∧ (modD2d s m f).epoch = s.epoch ∧ (modD2d s m f).nets = s.nets ∧
    (modD2d s m f).deliveries = s.deliveries := by
  and_intros <;> rfl

@[simp] theorem modTck_fields (s : State) (f : Tck → Tck) :
    (modTck s f).pending = s.pending ∧ (modTck s f).fresh = s.fresh ∧ (modTck s f).out = s.out ∧
    (modTck s f).pgs = s.pgs ∧ (modTck s f).tck = f s.tck ∧ (modTck s f).cals = s.cals ∧
    (modTck s f).calCtl = s.calCtl ∧ (modTck s f).insts = s.insts ∧ (modTck s f).staged = s.staged ∧
    (modTck s f).clusters = s.clusters ∧ (modTck s f).fabric = s.fabric ∧ (modTck s f).mem = s.mem ∧
    (modTck s f).poison = s.poison ∧ (modTck s f).hbm = s.hbm ∧ (modTck s f).rings = s.rings ∧
    (modTck s f).xfers = s.xfers ∧ (modTck s f).nextXfer = s.nextXfer ∧ (modTck s f).pci = s.pci ∧
    (modTck s f).failedOver = s.failedOver ∧ (modTck s f).hiLatch = s.hiLatch ∧ (modTck s f).loHeld = s.loHeld ∧
    (modTck s f).regQueue = s.regQueue ∧ (modTck s f).eth = s.eth ∧ (modTck s f).ktp = s.ktp ∧
    (modTck s f).ptp = s.ptp ∧ (modTck s f).sns = s.sns ∧ (modTck s f).ent = s.ent ∧ (modTck s f).sup = s.sup ∧
    (modTck s f).errs = s.errs ∧ (modTck s f).avs = s.avs ∧ (modTck s f).avsDev = s.avsDev ∧
    (modTck s f).pwr = s.pwr ∧ (modTck s f).thm = s.thm ∧ (modTck s f).glb = s.glb ∧ (modTck s f).tel = s.tel ∧
    (modTck s f).nextFrame = s.nextFrame ∧ (modTck s f).epoch = s.epoch ∧ (modTck s f).nets = s.nets ∧
    (modTck s f).deliveries = s.deliveries := by
  and_intros <;> rfl

@[simp] theorem modPwr_fields (s : State) (f : Pwr → Pwr) :
    (modPwr s f).pending = s.pending ∧ (modPwr s f).fresh = s.fresh ∧ (modPwr s f).out = s.out ∧
    (modPwr s f).pgs = s.pgs ∧ (modPwr s f).tck = s.tck ∧ (modPwr s f).cals = s.cals ∧
    (modPwr s f).calCtl = s.calCtl ∧ (modPwr s f).insts = s.insts ∧ (modPwr s f).staged = s.staged ∧
    (modPwr s f).clusters = s.clusters ∧ (modPwr s f).fabric = s.fabric ∧ (modPwr s f).mem = s.mem ∧
    (modPwr s f).poison = s.poison ∧ (modPwr s f).hbm = s.hbm ∧ (modPwr s f).rings = s.rings ∧
    (modPwr s f).xfers = s.xfers ∧ (modPwr s f).nextXfer = s.nextXfer ∧ (modPwr s f).pci = s.pci ∧
    (modPwr s f).failedOver = s.failedOver ∧ (modPwr s f).hiLatch = s.hiLatch ∧ (modPwr s f).loHeld = s.loHeld ∧
    (modPwr s f).regQueue = s.regQueue ∧ (modPwr s f).eth = s.eth ∧ (modPwr s f).ktp = s.ktp ∧
    (modPwr s f).ptp = s.ptp ∧ (modPwr s f).sns = s.sns ∧ (modPwr s f).ent = s.ent ∧ (modPwr s f).sup = s.sup ∧
    (modPwr s f).errs = s.errs ∧ (modPwr s f).avs = s.avs ∧ (modPwr s f).avsDev = s.avsDev ∧
    (modPwr s f).pwr = f s.pwr ∧ (modPwr s f).thm = s.thm ∧ (modPwr s f).glb = s.glb ∧ (modPwr s f).tel = s.tel ∧
    (modPwr s f).nextFrame = s.nextFrame ∧ (modPwr s f).epoch = s.epoch ∧ (modPwr s f).nets = s.nets ∧
    (modPwr s f).deliveries = s.deliveries := by
  and_intros <;> rfl

@[simp] theorem modGlb_fields (s : State) (f : Glb → Glb) :
    (modGlb s f).pending = s.pending ∧ (modGlb s f).fresh = s.fresh ∧ (modGlb s f).out = s.out ∧
    (modGlb s f).pgs = s.pgs ∧ (modGlb s f).tck = s.tck ∧ (modGlb s f).cals = s.cals ∧
    (modGlb s f).calCtl = s.calCtl ∧ (modGlb s f).insts = s.insts ∧ (modGlb s f).staged = s.staged ∧
    (modGlb s f).clusters = s.clusters ∧ (modGlb s f).fabric = s.fabric ∧ (modGlb s f).mem = s.mem ∧
    (modGlb s f).poison = s.poison ∧ (modGlb s f).hbm = s.hbm ∧ (modGlb s f).rings = s.rings ∧
    (modGlb s f).xfers = s.xfers ∧ (modGlb s f).nextXfer = s.nextXfer ∧ (modGlb s f).pci = s.pci ∧
    (modGlb s f).failedOver = s.failedOver ∧ (modGlb s f).hiLatch = s.hiLatch ∧ (modGlb s f).loHeld = s.loHeld ∧
    (modGlb s f).regQueue = s.regQueue ∧ (modGlb s f).eth = s.eth ∧ (modGlb s f).ktp = s.ktp ∧
    (modGlb s f).ptp = s.ptp ∧ (modGlb s f).sns = s.sns ∧ (modGlb s f).ent = s.ent ∧ (modGlb s f).sup = s.sup ∧
    (modGlb s f).errs = s.errs ∧ (modGlb s f).avs = s.avs ∧ (modGlb s f).avsDev = s.avsDev ∧
    (modGlb s f).pwr = s.pwr ∧ (modGlb s f).thm = s.thm ∧ (modGlb s f).glb = f s.glb ∧ (modGlb s f).tel = s.tel ∧
    (modGlb s f).nextFrame = s.nextFrame ∧ (modGlb s f).epoch = s.epoch ∧ (modGlb s f).nets = s.nets ∧
    (modGlb s f).deliveries = s.deliveries := by
  and_intros <;> rfl

@[simp] theorem modEnt_fields (s : State) (f : Ent → Ent) :
    (modEnt s f).pending = s.pending ∧ (modEnt s f).fresh = s.fresh ∧ (modEnt s f).out = s.out ∧
    (modEnt s f).pgs = s.pgs ∧ (modEnt s f).tck = s.tck ∧ (modEnt s f).cals = s.cals ∧
    (modEnt s f).calCtl = s.calCtl ∧ (modEnt s f).insts = s.insts ∧ (modEnt s f).staged = s.staged ∧
    (modEnt s f).clusters = s.clusters ∧ (modEnt s f).fabric = s.fabric ∧ (modEnt s f).mem = s.mem ∧
    (modEnt s f).poison = s.poison ∧ (modEnt s f).hbm = s.hbm ∧ (modEnt s f).rings = s.rings ∧
    (modEnt s f).xfers = s.xfers ∧ (modEnt s f).nextXfer = s.nextXfer ∧ (modEnt s f).pci = s.pci ∧
    (modEnt s f).failedOver = s.failedOver ∧ (modEnt s f).hiLatch = s.hiLatch ∧ (modEnt s f).loHeld = s.loHeld ∧
    (modEnt s f).regQueue = s.regQueue ∧ (modEnt s f).eth = s.eth ∧ (modEnt s f).ktp = s.ktp ∧
    (modEnt s f).ptp = s.ptp ∧ (modEnt s f).sns = s.sns ∧ (modEnt s f).ent = f s.ent ∧ (modEnt s f).sup = s.sup ∧
    (modEnt s f).errs = s.errs ∧ (modEnt s f).avs = s.avs ∧ (modEnt s f).avsDev = s.avsDev ∧
    (modEnt s f).pwr = s.pwr ∧ (modEnt s f).thm = s.thm ∧ (modEnt s f).glb = s.glb ∧ (modEnt s f).tel = s.tel ∧
    (modEnt s f).nextFrame = s.nextFrame ∧ (modEnt s f).epoch = s.epoch ∧ (modEnt s f).nets = s.nets ∧
    (modEnt s f).deliveries = s.deliveries := by
  and_intros <;> rfl

@[simp] theorem modThm_fields (s : State) (f : Thm → Thm) :
    (modThm s f).pending = s.pending ∧ (modThm s f).fresh = s.fresh ∧ (modThm s f).out = s.out ∧
    (modThm s f).pgs = s.pgs ∧ (modThm s f).tck = s.tck ∧ (modThm s f).cals = s.cals ∧
    (modThm s f).calCtl = s.calCtl ∧ (modThm s f).insts = s.insts ∧ (modThm s f).staged = s.staged ∧
    (modThm s f).clusters = s.clusters ∧ (modThm s f).fabric = s.fabric ∧ (modThm s f).mem = s.mem ∧
    (modThm s f).poison = s.poison ∧ (modThm s f).hbm = s.hbm ∧ (modThm s f).rings = s.rings ∧
    (modThm s f).xfers = s.xfers ∧ (modThm s f).nextXfer = s.nextXfer ∧ (modThm s f).pci = s.pci ∧
    (modThm s f).failedOver = s.failedOver ∧ (modThm s f).hiLatch = s.hiLatch ∧ (modThm s f).loHeld = s.loHeld ∧
    (modThm s f).regQueue = s.regQueue ∧ (modThm s f).eth = s.eth ∧ (modThm s f).ktp = s.ktp ∧
    (modThm s f).ptp = s.ptp ∧ (modThm s f).sns = s.sns ∧ (modThm s f).ent = s.ent ∧ (modThm s f).sup = s.sup ∧
    (modThm s f).errs = s.errs ∧ (modThm s f).avs = s.avs ∧ (modThm s f).avsDev = s.avsDev ∧
    (modThm s f).pwr = s.pwr ∧ (modThm s f).thm = f s.thm ∧ (modThm s f).glb = s.glb ∧ (modThm s f).tel = s.tel ∧
    (modThm s f).nextFrame = s.nextFrame ∧ (modThm s f).epoch = s.epoch ∧ (modThm s f).nets = s.nets ∧
    (modThm s f).deliveries = s.deliveries := by
  and_intros <;> rfl

@[simp] theorem modTel_fields (s : State) (f : Tel → Tel) :
    (modTel s f).pending = s.pending ∧ (modTel s f).fresh = s.fresh ∧ (modTel s f).out = s.out ∧
    (modTel s f).pgs = s.pgs ∧ (modTel s f).tck = s.tck ∧ (modTel s f).cals = s.cals ∧
    (modTel s f).calCtl = s.calCtl ∧ (modTel s f).insts = s.insts ∧ (modTel s f).staged = s.staged ∧
    (modTel s f).clusters = s.clusters ∧ (modTel s f).fabric = s.fabric ∧ (modTel s f).mem = s.mem ∧
    (modTel s f).poison = s.poison ∧ (modTel s f).hbm = s.hbm ∧ (modTel s f).rings = s.rings ∧
    (modTel s f).xfers = s.xfers ∧ (modTel s f).nextXfer = s.nextXfer ∧ (modTel s f).pci = s.pci ∧
    (modTel s f).failedOver = s.failedOver ∧ (modTel s f).hiLatch = s.hiLatch ∧ (modTel s f).loHeld = s.loHeld ∧
    (modTel s f).regQueue = s.regQueue ∧ (modTel s f).eth = s.eth ∧ (modTel s f).ktp = s.ktp ∧
    (modTel s f).ptp = s.ptp ∧ (modTel s f).sns = s.sns ∧ (modTel s f).ent = s.ent ∧ (modTel s f).sup = s.sup ∧
    (modTel s f).errs = s.errs ∧ (modTel s f).avs = s.avs ∧ (modTel s f).avsDev = s.avsDev ∧
    (modTel s f).pwr = s.pwr ∧ (modTel s f).thm = s.thm ∧ (modTel s f).glb = s.glb ∧ (modTel s f).tel = f s.tel ∧
    (modTel s f).nextFrame = s.nextFrame ∧ (modTel s f).epoch = s.epoch ∧ (modTel s f).nets = s.nets ∧
    (modTel s f).deliveries = s.deliveries := by
  and_intros <;> rfl

@[simp] theorem modPtp_fields (s : State) (f : Ptp → Ptp) :
    (modPtp s f).pending = s.pending ∧ (modPtp s f).fresh = s.fresh ∧ (modPtp s f).out = s.out ∧
    (modPtp s f).pgs = s.pgs ∧ (modPtp s f).tck = s.tck ∧ (modPtp s f).cals = s.cals ∧
    (modPtp s f).calCtl = s.calCtl ∧ (modPtp s f).insts = s.insts ∧ (modPtp s f).staged = s.staged ∧
    (modPtp s f).clusters = s.clusters ∧ (modPtp s f).fabric = s.fabric ∧ (modPtp s f).mem = s.mem ∧
    (modPtp s f).poison = s.poison ∧ (modPtp s f).hbm = s.hbm ∧ (modPtp s f).rings = s.rings ∧
    (modPtp s f).xfers = s.xfers ∧ (modPtp s f).nextXfer = s.nextXfer ∧ (modPtp s f).pci = s.pci ∧
    (modPtp s f).failedOver = s.failedOver ∧ (modPtp s f).hiLatch = s.hiLatch ∧ (modPtp s f).loHeld = s.loHeld ∧
    (modPtp s f).regQueue = s.regQueue ∧ (modPtp s f).eth = s.eth ∧ (modPtp s f).ktp = s.ktp ∧
    (modPtp s f).ptp = f s.ptp ∧ (modPtp s f).sns = s.sns ∧ (modPtp s f).ent = s.ent ∧ (modPtp s f).sup = s.sup ∧
    (modPtp s f).errs = s.errs ∧ (modPtp s f).avs = s.avs ∧ (modPtp s f).avsDev = s.avsDev ∧
    (modPtp s f).pwr = s.pwr ∧ (modPtp s f).thm = s.thm ∧ (modPtp s f).glb = s.glb ∧ (modPtp s f).tel = s.tel ∧
    (modPtp s f).nextFrame = s.nextFrame ∧ (modPtp s f).epoch = s.epoch ∧ (modPtp s f).nets = s.nets ∧
    (modPtp s f).deliveries = s.deliveries := by
  and_intros <;> rfl

@[simp] theorem modAvsDev_fields (s : State) (f : AvsDev → AvsDev) :
    (modAvsDev s f).pending = s.pending ∧ (modAvsDev s f).fresh = s.fresh ∧ (modAvsDev s f).out = s.out ∧
    (modAvsDev s f).pgs = s.pgs ∧ (modAvsDev s f).tck = s.tck ∧ (modAvsDev s f).cals = s.cals ∧
    (modAvsDev s f).calCtl = s.calCtl ∧ (modAvsDev s f).insts = s.insts ∧ (modAvsDev s f).staged = s.staged ∧
    (modAvsDev s f).clusters = s.clusters ∧ (modAvsDev s f).fabric = s.fabric ∧ (modAvsDev s f).mem = s.mem ∧
    (modAvsDev s f).poison = s.poison ∧ (modAvsDev s f).hbm = s.hbm ∧ (modAvsDev s f).rings = s.rings ∧
    (modAvsDev s f).xfers = s.xfers ∧ (modAvsDev s f).nextXfer = s.nextXfer ∧ (modAvsDev s f).pci = s.pci ∧
    (modAvsDev s f).failedOver = s.failedOver ∧ (modAvsDev s f).hiLatch = s.hiLatch ∧
    (modAvsDev s f).loHeld = s.loHeld ∧ (modAvsDev s f).regQueue = s.regQueue ∧ (modAvsDev s f).eth = s.eth ∧
    (modAvsDev s f).ktp = s.ktp ∧ (modAvsDev s f).ptp = s.ptp ∧ (modAvsDev s f).sns = s.sns ∧
    (modAvsDev s f).ent = s.ent ∧ (modAvsDev s f).sup = s.sup ∧ (modAvsDev s f).errs = s.errs ∧
    (modAvsDev s f).avs = s.avs ∧ (modAvsDev s f).avsDev = f s.avsDev ∧ (modAvsDev s f).pwr = s.pwr ∧
    (modAvsDev s f).thm = s.thm ∧ (modAvsDev s f).glb = s.glb ∧ (modAvsDev s f).tel = s.tel ∧
    (modAvsDev s f).nextFrame = s.nextFrame ∧ (modAvsDev s f).epoch = s.epoch ∧ (modAvsDev s f).nets = s.nets ∧
    (modAvsDev s f).deliveries = s.deliveries := by
  and_intros <;> rfl

@[simp] theorem modCalCtl_fields (s : State) (f : CalCtl → CalCtl) :
    (modCalCtl s f).pending = s.pending ∧ (modCalCtl s f).fresh = s.fresh ∧ (modCalCtl s f).out = s.out ∧
    (modCalCtl s f).pgs = s.pgs ∧ (modCalCtl s f).tck = s.tck ∧ (modCalCtl s f).cals = s.cals ∧
    (modCalCtl s f).calCtl = f s.calCtl ∧ (modCalCtl s f).insts = s.insts ∧ (modCalCtl s f).staged = s.staged ∧
    (modCalCtl s f).clusters = s.clusters ∧ (modCalCtl s f).fabric = s.fabric ∧ (modCalCtl s f).mem = s.mem ∧
    (modCalCtl s f).poison = s.poison ∧ (modCalCtl s f).hbm = s.hbm ∧ (modCalCtl s f).rings = s.rings ∧
    (modCalCtl s f).xfers = s.xfers ∧ (modCalCtl s f).nextXfer = s.nextXfer ∧ (modCalCtl s f).pci = s.pci ∧
    (modCalCtl s f).failedOver = s.failedOver ∧ (modCalCtl s f).hiLatch = s.hiLatch ∧
    (modCalCtl s f).loHeld = s.loHeld ∧ (modCalCtl s f).regQueue = s.regQueue ∧ (modCalCtl s f).eth = s.eth ∧
    (modCalCtl s f).ktp = s.ktp ∧ (modCalCtl s f).ptp = s.ptp ∧ (modCalCtl s f).sns = s.sns ∧
    (modCalCtl s f).ent = s.ent ∧ (modCalCtl s f).sup = s.sup ∧ (modCalCtl s f).errs = s.errs ∧
    (modCalCtl s f).avs = s.avs ∧ (modCalCtl s f).avsDev = s.avsDev ∧ (modCalCtl s f).pwr = s.pwr ∧
    (modCalCtl s f).thm = s.thm ∧ (modCalCtl s f).glb = s.glb ∧ (modCalCtl s f).tel = s.tel ∧
    (modCalCtl s f).nextFrame = s.nextFrame ∧ (modCalCtl s f).epoch = s.epoch ∧ (modCalCtl s f).nets = s.nets ∧
    (modCalCtl s f).deliveries = s.deliveries := by
  and_intros <;> rfl

@[simp] theorem emit_fields (s : State) (o : Output) :
    (emit s o).pending = s.pending ∧ (emit s o).fresh = s.fresh ∧ (emit s o).out = s.out ++ [o] ∧
    (emit s o).pgs = s.pgs ∧ (emit s o).tck = s.tck ∧ (emit s o).cals = s.cals ∧ (emit s o).calCtl = s.calCtl ∧
    (emit s o).insts = s.insts ∧ (emit s o).staged = s.staged ∧ (emit s o).clusters = s.clusters ∧
    (emit s o).fabric = s.fabric ∧ (emit s o).mem = s.mem ∧ (emit s o).poison = s.poison ∧ (emit s o).hbm = s.hbm ∧
    (emit s o).rings = s.rings ∧ (emit s o).xfers = s.xfers ∧ (emit s o).nextXfer = s.nextXfer ∧
    (emit s o).pci = s.pci ∧ (emit s o).failedOver = s.failedOver ∧ (emit s o).hiLatch = s.hiLatch ∧
    (emit s o).loHeld = s.loHeld ∧ (emit s o).regQueue = s.regQueue ∧ (emit s o).eth = s.eth ∧
    (emit s o).ktp = s.ktp ∧ (emit s o).ptp = s.ptp ∧ (emit s o).sns = s.sns ∧ (emit s o).ent = s.ent ∧
    (emit s o).sup = s.sup ∧ (emit s o).errs = s.errs ∧ (emit s o).avs = s.avs ∧ (emit s o).avsDev = s.avsDev ∧
    (emit s o).pwr = s.pwr ∧ (emit s o).thm = s.thm ∧ (emit s o).glb = s.glb ∧ (emit s o).tel = s.tel ∧
    (emit s o).nextFrame = s.nextFrame ∧ (emit s o).epoch = s.epoch ∧ (emit s o).nets = s.nets ∧
    (emit s o).deliveries = s.deliveries := by
  and_intros <;> rfl

@[simp] theorem burn_fields (s : State) (n : Nat) :
    (burn s n).pending = s.pending ∧ (burn s n).fresh = s.fresh + n ∧ (burn s n).out = s.out ∧
    (burn s n).pgs = s.pgs ∧ (burn s n).tck = s.tck ∧ (burn s n).cals = s.cals ∧ (burn s n).calCtl = s.calCtl ∧
    (burn s n).insts = s.insts ∧ (burn s n).staged = s.staged ∧ (burn s n).clusters = s.clusters ∧
    (burn s n).fabric = s.fabric ∧ (burn s n).mem = s.mem ∧ (burn s n).poison = s.poison ∧ (burn s n).hbm = s.hbm ∧
    (burn s n).rings = s.rings ∧ (burn s n).xfers = s.xfers ∧ (burn s n).nextXfer = s.nextXfer ∧
    (burn s n).pci = s.pci ∧ (burn s n).failedOver = s.failedOver ∧ (burn s n).hiLatch = s.hiLatch ∧
    (burn s n).loHeld = s.loHeld ∧ (burn s n).regQueue = s.regQueue ∧ (burn s n).eth = s.eth ∧
    (burn s n).ktp = s.ktp ∧ (burn s n).ptp = s.ptp ∧ (burn s n).sns = s.sns ∧ (burn s n).ent = s.ent ∧
    (burn s n).sup = s.sup ∧ (burn s n).errs = s.errs ∧ (burn s n).avs = s.avs ∧ (burn s n).avsDev = s.avsDev ∧
    (burn s n).pwr = s.pwr ∧ (burn s n).thm = s.thm ∧ (burn s n).glb = s.glb ∧ (burn s n).tel = s.tel ∧
    (burn s n).nextFrame = s.nextFrame ∧ (burn s n).epoch = s.epoch ∧ (burn s n).nets = s.nets ∧
    (burn s n).deliveries = s.deliveries := by
  and_intros <;> rfl

@[simp] theorem modHdr_fields (s : State) (pg : Nat) (f : PgHdr → PgHdr) :
    (modHdr s pg f).pending = s.pending ∧ (modHdr s pg f).fresh = s.fresh ∧ (modHdr s pg f).out = s.out ∧
    (modHdr s pg f).pgs = mmod s.pgs {} pg f ∧ (modHdr s pg f).tck = s.tck ∧ (modHdr s pg f).cals = s.cals ∧
    (modHdr s pg f).calCtl = s.calCtl ∧ (modHdr s pg f).insts = s.insts ∧ (modHdr s pg f).staged = s.staged ∧
    (modHdr s pg f).clusters = s.clusters ∧ (modHdr s pg f).fabric = s.fabric ∧ (modHdr s pg f).mem = s.mem ∧
    (modHdr s pg f).poison = s.poison ∧ (modHdr s pg f).hbm = s.hbm ∧ (modHdr s pg f).rings = s.rings ∧
    (modHdr s pg f).xfers = s.xfers ∧ (modHdr s pg f).nextXfer = s.nextXfer ∧ (modHdr s pg f).pci = s.pci ∧
    (modHdr s pg f).failedOver = s.failedOver ∧ (modHdr s pg f).hiLatch = s.hiLatch ∧
    (modHdr s pg f).loHeld = s.loHeld ∧ (modHdr s pg f).regQueue = s.regQueue ∧ (modHdr s pg f).eth = s.eth ∧
    (modHdr s pg f).ktp = s.ktp ∧ (modHdr s pg f).ptp = s.ptp ∧ (modHdr s pg f).sns = s.sns ∧
    (modHdr s pg f).ent = s.ent ∧ (modHdr s pg f).sup = s.sup ∧ (modHdr s pg f).errs = s.errs ∧
    (modHdr s pg f).avs = s.avs ∧ (modHdr s pg f).avsDev = s.avsDev ∧ (modHdr s pg f).pwr = s.pwr ∧
    (modHdr s pg f).thm = s.thm ∧ (modHdr s pg f).glb = s.glb ∧ (modHdr s pg f).tel = s.tel ∧
    (modHdr s pg f).nextFrame = s.nextFrame ∧ (modHdr s pg f).epoch = s.epoch ∧ (modHdr s pg f).nets = s.nets ∧
    (modHdr s pg f).deliveries = s.deliveries := by
  and_intros <;> rfl

end Sys2Proof.Machine
end

