-- ==== Sys2Proof/Laws/Ops.lean ====
section
/-! SUPPORT. Laws/Ops.lean: what each shared operation of Machine/Ops.lean can do, said once: the fields it may change, every
other being as before, and what page headers and clusters read as afterwards. -/

namespace Sys2Proof.Machine

/-- What every step of a fold keeps, the fold keeps. -/
theorem foldl_keeps {α β : Type} (p : State → β) (f : State → α → State) (h : ∀ s a, p (f s a) = p s) (l : List α)
    (s : State) : p (l.foldl f s) = p s := by
  induction l generalizing s with
  | nil => rfl
  | cons a t ih => simp only [List.foldl_cons]; rw [ih, h]

@[simp] theorem bumpBy_fields (s : State) (pg n k : Nat) :
    (bumpBy s pg n k).pending = s.pending ∧ (bumpBy s pg n k).fresh = s.fresh ∧ (bumpBy s pg n k).out = s.out ∧
    (bumpBy s pg n k).tck = s.tck ∧ (bumpBy s pg n k).cals = s.cals ∧ (bumpBy s pg n k).calCtl = s.calCtl ∧
    (bumpBy s pg n k).insts = s.insts ∧ (bumpBy s pg n k).staged = s.staged ∧
    (bumpBy s pg n k).clusters = s.clusters ∧ (bumpBy s pg n k).fabric = s.fabric ∧ (bumpBy s pg n k).mem = s.mem ∧
    (bumpBy s pg n k).poison = s.poison ∧ (bumpBy s pg n k).hbm = s.hbm ∧ (bumpBy s pg n k).rings = s.rings ∧
    (bumpBy s pg n k).xfers = s.xfers ∧ (bumpBy s pg n k).nextXfer = s.nextXfer ∧ (bumpBy s pg n k).pci = s.pci ∧
    (bumpBy s pg n k).failedOver = s.failedOver ∧ (bumpBy s pg n k).hiLatch = s.hiLatch ∧
    (bumpBy s pg n k).loHeld = s.loHeld ∧ (bumpBy s pg n k).regQueue = s.regQueue ∧ (bumpBy s pg n k).eth = s.eth ∧
    (bumpBy s pg n k).ktp = s.ktp ∧ (bumpBy s pg n k).ptp = s.ptp ∧ (bumpBy s pg n k).sns = s.sns ∧
    (bumpBy s pg n k).ent = s.ent ∧ (bumpBy s pg n k).sup = s.sup ∧ (bumpBy s pg n k).errs = s.errs ∧
    (bumpBy s pg n k).avs = s.avs ∧ (bumpBy s pg n k).avsDev = s.avsDev ∧ (bumpBy s pg n k).pwr = s.pwr ∧
    (bumpBy s pg n k).thm = s.thm ∧ (bumpBy s pg n k).glb = s.glb ∧ (bumpBy s pg n k).tel = s.tel ∧
    (bumpBy s pg n k).nextFrame = s.nextFrame ∧ (bumpBy s pg n k).epoch = s.epoch ∧ (bumpBy s pg n k).nets = s.nets ∧
    (bumpBy s pg n k).deliveries = s.deliveries := by
  and_intros <;> rfl

@[simp] theorem bump_fields (s : State) (pg n : Nat) :
    (bump s pg n).pending = s.pending ∧ (bump s pg n).fresh = s.fresh ∧ (bump s pg n).out = s.out ∧
    (bump s pg n).tck = s.tck ∧ (bump s pg n).cals = s.cals ∧ (bump s pg n).calCtl = s.calCtl ∧
    (bump s pg n).insts = s.insts ∧ (bump s pg n).staged = s.staged ∧ (bump s pg n).clusters = s.clusters ∧
    (bump s pg n).fabric = s.fabric ∧ (bump s pg n).mem = s.mem ∧ (bump s pg n).poison = s.poison ∧
    (bump s pg n).hbm = s.hbm ∧ (bump s pg n).rings = s.rings ∧ (bump s pg n).xfers = s.xfers ∧
    (bump s pg n).nextXfer = s.nextXfer ∧ (bump s pg n).pci = s.pci ∧ (bump s pg n).failedOver = s.failedOver ∧
    (bump s pg n).hiLatch = s.hiLatch ∧ (bump s pg n).loHeld = s.loHeld ∧ (bump s pg n).regQueue = s.regQueue ∧
    (bump s pg n).eth = s.eth ∧ (bump s pg n).ktp = s.ktp ∧ (bump s pg n).ptp = s.ptp ∧ (bump s pg n).sns = s.sns ∧
    (bump s pg n).ent = s.ent ∧ (bump s pg n).sup = s.sup ∧ (bump s pg n).errs = s.errs ∧ (bump s pg n).avs = s.avs ∧
    (bump s pg n).avsDev = s.avsDev ∧ (bump s pg n).pwr = s.pwr ∧ (bump s pg n).thm = s.thm ∧
    (bump s pg n).glb = s.glb ∧ (bump s pg n).tel = s.tel ∧ (bump s pg n).nextFrame = s.nextFrame ∧
    (bump s pg n).epoch = s.epoch ∧ (bump s pg n).nets = s.nets ∧ (bump s pg n).deliveries = s.deliveries := by
  and_intros <;> rfl

@[simp] theorem tlps_fields (s : State) (dir k : Nat) :
    (tlps s dir k).pending = s.pending ∧ (tlps s dir k).fresh = s.fresh ∧ (tlps s dir k).out = s.out ∧
    (tlps s dir k).tck = s.tck ∧ (tlps s dir k).cals = s.cals ∧ (tlps s dir k).calCtl = s.calCtl ∧
    (tlps s dir k).insts = s.insts ∧ (tlps s dir k).staged = s.staged ∧ (tlps s dir k).clusters = s.clusters ∧
    (tlps s dir k).fabric = s.fabric ∧ (tlps s dir k).mem = s.mem ∧ (tlps s dir k).poison = s.poison ∧
    (tlps s dir k).hbm = s.hbm ∧ (tlps s dir k).rings = s.rings ∧ (tlps s dir k).xfers = s.xfers ∧
    (tlps s dir k).nextXfer = s.nextXfer ∧ (tlps s dir k).pci = s.pci ∧ (tlps s dir k).failedOver = s.failedOver ∧
    (tlps s dir k).hiLatch = s.hiLatch ∧ (tlps s dir k).loHeld = s.loHeld ∧ (tlps s dir k).regQueue = s.regQueue ∧
    (tlps s dir k).eth = s.eth ∧ (tlps s dir k).ktp = s.ktp ∧ (tlps s dir k).ptp = s.ptp ∧
    (tlps s dir k).sns = s.sns ∧ (tlps s dir k).ent = s.ent ∧ (tlps s dir k).sup = s.sup ∧
    (tlps s dir k).errs = s.errs ∧ (tlps s dir k).avs = s.avs ∧ (tlps s dir k).avsDev = s.avsDev ∧
    (tlps s dir k).pwr = s.pwr ∧ (tlps s dir k).thm = s.thm ∧ (tlps s dir k).glb = s.glb ∧
    (tlps s dir k).tel = s.tel ∧ (tlps s dir k).nextFrame = s.nextFrame ∧ (tlps s dir k).epoch = s.epoch ∧
    (tlps s dir k).nets = s.nets ∧ (tlps s dir k).deliveries = s.deliveries := by
  and_intros <;> rfl

@[simp] theorem touch_fields (s : State) (pg : Nat) :
    (touch s pg).pending = s.pending ∧ (touch s pg).fresh = s.fresh ∧ (touch s pg).out = s.out ∧
    (touch s pg).tck = s.tck ∧ (touch s pg).cals = s.cals ∧ (touch s pg).calCtl = s.calCtl ∧
    (touch s pg).insts = s.insts ∧ (touch s pg).staged = s.staged ∧ (touch s pg).clusters = s.clusters ∧
    (touch s pg).fabric = s.fabric ∧ (touch s pg).mem = s.mem ∧ (touch s pg).poison = s.poison ∧
    (touch s pg).hbm = s.hbm ∧ (touch s pg).rings = s.rings ∧ (touch s pg).xfers = s.xfers ∧
    (touch s pg).nextXfer = s.nextXfer ∧ (touch s pg).pci = s.pci ∧ (touch s pg).failedOver = s.failedOver ∧
    (touch s pg).hiLatch = s.hiLatch ∧ (touch s pg).loHeld = s.loHeld ∧ (touch s pg).regQueue = s.regQueue ∧
    (touch s pg).eth = s.eth ∧ (touch s pg).ktp = s.ktp ∧ (touch s pg).ptp = s.ptp ∧ (touch s pg).sns = s.sns ∧
    (touch s pg).ent = s.ent ∧ (touch s pg).sup = s.sup ∧ (touch s pg).errs = s.errs ∧ (touch s pg).avs = s.avs ∧
    (touch s pg).avsDev = s.avsDev ∧ (touch s pg).pwr = s.pwr ∧ (touch s pg).thm = s.thm ∧ (touch s pg).glb = s.glb ∧
    (touch s pg).tel = s.tel ∧ (touch s pg).nextFrame = s.nextFrame ∧ (touch s pg).epoch = s.epoch ∧
    (touch s pg).nets = s.nets ∧ (touch s pg).deliveries = s.deliveries := by
  and_intros <;> rfl

@[simp] theorem pgErr_fields (s : State) (pg n : Nat) :
    (pgErr s pg n).pending = s.pending ∧ (pgErr s pg n).fresh = s.fresh ∧ (pgErr s pg n).out = s.out ∧
    (pgErr s pg n).tck = s.tck ∧ (pgErr s pg n).cals = s.cals ∧ (pgErr s pg n).calCtl = s.calCtl ∧
    (pgErr s pg n).insts = s.insts ∧ (pgErr s pg n).staged = s.staged ∧ (pgErr s pg n).clusters = s.clusters ∧
    (pgErr s pg n).fabric = s.fabric ∧ (pgErr s pg n).mem = s.mem ∧ (pgErr s pg n).poison = s.poison ∧
    (pgErr s pg n).hbm = s.hbm ∧ (pgErr s pg n).rings = s.rings ∧ (pgErr s pg n).xfers = s.xfers ∧
    (pgErr s pg n).nextXfer = s.nextXfer ∧ (pgErr s pg n).pci = s.pci ∧ (pgErr s pg n).failedOver = s.failedOver ∧
    (pgErr s pg n).hiLatch = s.hiLatch ∧ (pgErr s pg n).loHeld = s.loHeld ∧ (pgErr s pg n).regQueue = s.regQueue ∧
    (pgErr s pg n).eth = s.eth ∧ (pgErr s pg n).ktp = s.ktp ∧ (pgErr s pg n).ptp = s.ptp ∧
    (pgErr s pg n).sns = s.sns ∧ (pgErr s pg n).ent = s.ent ∧ (pgErr s pg n).sup = s.sup ∧
    (pgErr s pg n).errs = s.errs ∧ (pgErr s pg n).avs = s.avs ∧ (pgErr s pg n).avsDev = s.avsDev ∧
    (pgErr s pg n).pwr = s.pwr ∧ (pgErr s pg n).thm = s.thm ∧ (pgErr s pg n).glb = s.glb ∧
    (pgErr s pg n).tel = s.tel ∧ (pgErr s pg n).nextFrame = s.nextFrame ∧ (pgErr s pg n).epoch = s.epoch ∧
    (pgErr s pg n).nets = s.nets ∧ (pgErr s pg n).deliveries = s.deliveries := by
  and_intros <;> rfl

@[simp] theorem publishHdr_fields (s : State) (pg : Nat) :
    (publishHdr s pg).pending = s.pending ∧ (publishHdr s pg).fresh = s.fresh ∧ (publishHdr s pg).out = s.out ∧
    (publishHdr s pg).tck = s.tck ∧ (publishHdr s pg).cals = s.cals ∧ (publishHdr s pg).calCtl = s.calCtl ∧
    (publishHdr s pg).insts = s.insts ∧ (publishHdr s pg).staged = s.staged ∧
    (publishHdr s pg).clusters = s.clusters ∧ (publishHdr s pg).fabric = s.fabric ∧ (publishHdr s pg).mem = s.mem ∧
    (publishHdr s pg).poison = s.poison ∧ (publishHdr s pg).hbm = s.hbm ∧ (publishHdr s pg).rings = s.rings ∧
    (publishHdr s pg).xfers = s.xfers ∧ (publishHdr s pg).nextXfer = s.nextXfer ∧ (publishHdr s pg).pci = s.pci ∧
    (publishHdr s pg).failedOver = s.failedOver ∧ (publishHdr s pg).hiLatch = s.hiLatch ∧
    (publishHdr s pg).loHeld = s.loHeld ∧ (publishHdr s pg).regQueue = s.regQueue ∧ (publishHdr s pg).eth = s.eth ∧
    (publishHdr s pg).ktp = s.ktp ∧ (publishHdr s pg).ptp = s.ptp ∧ (publishHdr s pg).sns = s.sns ∧
    (publishHdr s pg).ent = s.ent ∧ (publishHdr s pg).sup = s.sup ∧ (publishHdr s pg).errs = s.errs ∧
    (publishHdr s pg).avs = s.avs ∧ (publishHdr s pg).avsDev = s.avsDev ∧ (publishHdr s pg).pwr = s.pwr ∧
    (publishHdr s pg).thm = s.thm ∧ (publishHdr s pg).glb = s.glb ∧ (publishHdr s pg).tel = s.tel ∧
    (publishHdr s pg).nextFrame = s.nextFrame ∧ (publishHdr s pg).epoch = s.epoch ∧ (publishHdr s pg).nets = s.nets ∧
    (publishHdr s pg).deliveries = s.deliveries := by
  and_intros <;> rfl

@[simp] theorem logErr_fields (s : State) (r : Report) :
    (logErr s r).pending = s.pending ∧ (logErr s r).fresh = s.fresh + 1 ∧ (logErr s r).tck = s.tck ∧
    (logErr s r).cals = s.cals ∧ (logErr s r).calCtl = s.calCtl ∧ (logErr s r).insts = s.insts ∧
    (logErr s r).staged = s.staged ∧ (logErr s r).clusters = s.clusters ∧ (logErr s r).fabric = s.fabric ∧
    (logErr s r).mem = s.mem ∧ (logErr s r).poison = s.poison ∧ (logErr s r).hbm = s.hbm ∧
    (logErr s r).rings = s.rings ∧ (logErr s r).xfers = s.xfers ∧ (logErr s r).nextXfer = s.nextXfer ∧
    (logErr s r).pci = s.pci ∧ (logErr s r).failedOver = s.failedOver ∧ (logErr s r).hiLatch = s.hiLatch ∧
    (logErr s r).loHeld = s.loHeld ∧ (logErr s r).regQueue = s.regQueue ∧ (logErr s r).eth = s.eth ∧
    (logErr s r).ktp = s.ktp ∧ (logErr s r).ptp = s.ptp ∧ (logErr s r).sns = s.sns ∧ (logErr s r).ent = s.ent ∧
    (logErr s r).sup = s.sup ∧ (logErr s r).avs = s.avs ∧ (logErr s r).avsDev = s.avsDev ∧ (logErr s r).pwr = s.pwr ∧
    (logErr s r).thm = s.thm ∧ (logErr s r).glb = s.glb ∧ (logErr s r).tel = s.tel ∧
    (logErr s r).nextFrame = s.nextFrame ∧ (logErr s r).epoch = s.epoch ∧ (logErr s r).nets = s.nets ∧
    (logErr s r).deliveries = s.deliveries := by
  and_intros <;> (unfold logErr; dsimp only; split <;> rfl)

@[simp] theorem logNote_fields (s : State) (pg n : Nat) (r : Report) :
    (logNote s pg n r).pending = s.pending ∧ (logNote s pg n r).tck = s.tck ∧ (logNote s pg n r).cals = s.cals ∧
    (logNote s pg n r).calCtl = s.calCtl ∧ (logNote s pg n r).insts = s.insts ∧
    (logNote s pg n r).staged = s.staged ∧ (logNote s pg n r).clusters = s.clusters ∧
    (logNote s pg n r).fabric = s.fabric ∧ (logNote s pg n r).mem = s.mem ∧ (logNote s pg n r).poison = s.poison ∧
    (logNote s pg n r).hbm = s.hbm ∧ (logNote s pg n r).rings = s.rings ∧ (logNote s pg n r).xfers = s.xfers ∧
    (logNote s pg n r).nextXfer = s.nextXfer ∧ (logNote s pg n r).pci = s.pci ∧
    (logNote s pg n r).failedOver = s.failedOver ∧ (logNote s pg n r).hiLatch = s.hiLatch ∧
    (logNote s pg n r).loHeld = s.loHeld ∧ (logNote s pg n r).regQueue = s.regQueue ∧
    (logNote s pg n r).eth = s.eth ∧ (logNote s pg n r).ktp = s.ktp ∧ (logNote s pg n r).ptp = s.ptp ∧
    (logNote s pg n r).sns = s.sns ∧ (logNote s pg n r).ent = s.ent ∧ (logNote s pg n r).sup = s.sup ∧
    (logNote s pg n r).avs = s.avs ∧ (logNote s pg n r).avsDev = s.avsDev ∧ (logNote s pg n r).pwr = s.pwr ∧
    (logNote s pg n r).thm = s.thm ∧ (logNote s pg n r).glb = s.glb ∧ (logNote s pg n r).tel = s.tel ∧
    (logNote s pg n r).nextFrame = s.nextFrame ∧ (logNote s pg n r).epoch = s.epoch ∧
    (logNote s pg n r).nets = s.nets ∧ (logNote s pg n r).deliveries = s.deliveries := by
  and_intros <;> (unfold logNote; split <;> simp)

@[simp] theorem stopClusters_fields (s : State) (id : Nat) :
    (stopClusters s id).pending = s.pending ∧ (stopClusters s id).fresh = s.fresh ∧ (stopClusters s id).out = s.out ∧
    (stopClusters s id).pgs = s.pgs ∧ (stopClusters s id).tck = s.tck ∧ (stopClusters s id).cals = s.cals ∧
    (stopClusters s id).calCtl = s.calCtl ∧ (stopClusters s id).insts = s.insts ∧
    (stopClusters s id).staged = s.staged ∧ (stopClusters s id).fabric = s.fabric ∧ (stopClusters s id).mem = s.mem ∧
    (stopClusters s id).poison = s.poison ∧ (stopClusters s id).hbm = s.hbm ∧ (stopClusters s id).rings = s.rings ∧
    (stopClusters s id).xfers = s.xfers ∧ (stopClusters s id).nextXfer = s.nextXfer ∧
    (stopClusters s id).pci = s.pci ∧ (stopClusters s id).failedOver = s.failedOver ∧
    (stopClusters s id).hiLatch = s.hiLatch ∧ (stopClusters s id).loHeld = s.loHeld ∧
    (stopClusters s id).regQueue = s.regQueue ∧ (stopClusters s id).eth = s.eth ∧ (stopClusters s id).ktp = s.ktp ∧
    (stopClusters s id).ptp = s.ptp ∧ (stopClusters s id).sns = s.sns ∧ (stopClusters s id).ent = s.ent ∧
    (stopClusters s id).sup = s.sup ∧ (stopClusters s id).errs = s.errs ∧ (stopClusters s id).avs = s.avs ∧
    (stopClusters s id).avsDev = s.avsDev ∧ (stopClusters s id).pwr = s.pwr ∧ (stopClusters s id).thm = s.thm ∧
    (stopClusters s id).glb = s.glb ∧ (stopClusters s id).tel = s.tel ∧ (stopClusters s id).nextFrame = s.nextFrame ∧
    (stopClusters s id).epoch = s.epoch ∧ (stopClusters s id).nets = s.nets ∧
    (stopClusters s id).deliveries = s.deliveries := by
  and_intros <;> (unfold stopClusters; exact foldl_keeps _ _ (fun t c => by simp) _ s)

@[simp] theorem replayFault_fields (s : State) (id : Nat) :
    (replayFault s id).pending = s.pending ∧ (replayFault s id).fresh = s.fresh ∧ (replayFault s id).out = s.out ∧
    (replayFault s id).pgs = s.pgs ∧ (replayFault s id).tck = s.tck ∧ (replayFault s id).cals = s.cals ∧
    (replayFault s id).calCtl = s.calCtl ∧ (replayFault s id).staged = s.staged ∧
    (replayFault s id).fabric = s.fabric ∧ (replayFault s id).mem = s.mem ∧ (replayFault s id).poison = s.poison ∧
    (replayFault s id).hbm = s.hbm ∧ (replayFault s id).rings = s.rings ∧ (replayFault s id).xfers = s.xfers ∧
    (replayFault s id).nextXfer = s.nextXfer ∧ (replayFault s id).pci = s.pci ∧
    (replayFault s id).failedOver = s.failedOver ∧ (replayFault s id).hiLatch = s.hiLatch ∧
    (replayFault s id).loHeld = s.loHeld ∧ (replayFault s id).regQueue = s.regQueue ∧
    (replayFault s id).eth = s.eth ∧ (replayFault s id).ktp = s.ktp ∧ (replayFault s id).ptp = s.ptp ∧
    (replayFault s id).sns = s.sns ∧ (replayFault s id).ent = s.ent ∧ (replayFault s id).sup = s.sup ∧
    (replayFault s id).errs = s.errs ∧ (replayFault s id).avs = s.avs ∧ (replayFault s id).avsDev = s.avsDev ∧
    (replayFault s id).pwr = s.pwr ∧ (replayFault s id).thm = s.thm ∧ (replayFault s id).glb = s.glb ∧
    (replayFault s id).tel = s.tel ∧ (replayFault s id).nextFrame = s.nextFrame ∧
    (replayFault s id).epoch = s.epoch ∧ (replayFault s id).nets = s.nets ∧
    (replayFault s id).deliveries = s.deliveries := by
  and_intros <;> (unfold replayFault; dsimp only; split <;> [(split <;> [simp; (split <;> simp)]); rfl])

@[simp] theorem divergeFault_fields (s : State) (id : Nat) :
    (divergeFault s id).pending = s.pending ∧ (divergeFault s id).fresh = s.fresh ∧ (divergeFault s id).out = s.out ∧
    (divergeFault s id).pgs = s.pgs ∧ (divergeFault s id).tck = s.tck ∧ (divergeFault s id).cals = s.cals ∧
    (divergeFault s id).calCtl = s.calCtl ∧ (divergeFault s id).staged = s.staged ∧
    (divergeFault s id).fabric = s.fabric ∧ (divergeFault s id).mem = s.mem ∧ (divergeFault s id).poison = s.poison ∧
    (divergeFault s id).hbm = s.hbm ∧ (divergeFault s id).rings = s.rings ∧ (divergeFault s id).xfers = s.xfers ∧
    (divergeFault s id).nextXfer = s.nextXfer ∧ (divergeFault s id).pci = s.pci ∧
    (divergeFault s id).failedOver = s.failedOver ∧ (divergeFault s id).hiLatch = s.hiLatch ∧
    (divergeFault s id).loHeld = s.loHeld ∧ (divergeFault s id).regQueue = s.regQueue ∧
    (divergeFault s id).eth = s.eth ∧ (divergeFault s id).ktp = s.ktp ∧ (divergeFault s id).ptp = s.ptp ∧
    (divergeFault s id).sns = s.sns ∧ (divergeFault s id).ent = s.ent ∧ (divergeFault s id).sup = s.sup ∧
    (divergeFault s id).errs = s.errs ∧ (divergeFault s id).avs = s.avs ∧ (divergeFault s id).avsDev = s.avsDev ∧
    (divergeFault s id).pwr = s.pwr ∧ (divergeFault s id).thm = s.thm ∧ (divergeFault s id).glb = s.glb ∧
    (divergeFault s id).tel = s.tel ∧ (divergeFault s id).nextFrame = s.nextFrame ∧
    (divergeFault s id).epoch = s.epoch ∧ (divergeFault s id).nets = s.nets ∧
    (divergeFault s id).deliveries = s.deliveries := by
  and_intros <;> (unfold divergeFault; dsimp only; split <;> [(split <;> [simp; (split <;> simp)]); rfl])

@[simp] theorem holdAtBoundary_fields (s : State) (id cause : Nat) :
    (holdAtBoundary s id cause).pending = s.pending ∧ (holdAtBoundary s id cause).fresh = s.fresh ∧
    (holdAtBoundary s id cause).out = s.out ∧ (holdAtBoundary s id cause).pgs = s.pgs ∧
    (holdAtBoundary s id cause).tck = s.tck ∧ (holdAtBoundary s id cause).cals = s.cals ∧
    (holdAtBoundary s id cause).calCtl = s.calCtl ∧ (holdAtBoundary s id cause).staged = s.staged ∧
    (holdAtBoundary s id cause).clusters = s.clusters ∧ (holdAtBoundary s id cause).fabric = s.fabric ∧
    (holdAtBoundary s id cause).mem = s.mem ∧ (holdAtBoundary s id cause).poison = s.poison ∧
    (holdAtBoundary s id cause).hbm = s.hbm ∧ (holdAtBoundary s id cause).rings = s.rings ∧
    (holdAtBoundary s id cause).xfers = s.xfers ∧ (holdAtBoundary s id cause).nextXfer = s.nextXfer ∧
    (holdAtBoundary s id cause).pci = s.pci ∧ (holdAtBoundary s id cause).failedOver = s.failedOver ∧
    (holdAtBoundary s id cause).hiLatch = s.hiLatch ∧ (holdAtBoundary s id cause).loHeld = s.loHeld ∧
    (holdAtBoundary s id cause).regQueue = s.regQueue ∧ (holdAtBoundary s id cause).eth = s.eth ∧
    (holdAtBoundary s id cause).ktp = s.ktp ∧ (holdAtBoundary s id cause).ptp = s.ptp ∧
    (holdAtBoundary s id cause).sns = s.sns ∧ (holdAtBoundary s id cause).ent = s.ent ∧
    (holdAtBoundary s id cause).sup = s.sup ∧ (holdAtBoundary s id cause).errs = s.errs ∧
    (holdAtBoundary s id cause).avs = s.avs ∧ (holdAtBoundary s id cause).avsDev = s.avsDev ∧
    (holdAtBoundary s id cause).pwr = s.pwr ∧ (holdAtBoundary s id cause).thm = s.thm ∧
    (holdAtBoundary s id cause).glb = s.glb ∧ (holdAtBoundary s id cause).tel = s.tel ∧
    (holdAtBoundary s id cause).nextFrame = s.nextFrame ∧ (holdAtBoundary s id cause).epoch = s.epoch ∧
    (holdAtBoundary s id cause).nets = s.nets ∧ (holdAtBoundary s id cause).deliveries = s.deliveries := by
  and_intros <;> (unfold holdAtBoundary; simp)

@[simp] theorem holdFault_fields (s : State) (id cause : Nat) :
    (holdFault s id cause).pending = s.pending ∧ (holdFault s id cause).fresh = s.fresh ∧
    (holdFault s id cause).out = s.out ∧ (holdFault s id cause).pgs = s.pgs ∧ (holdFault s id cause).tck = s.tck ∧
    (holdFault s id cause).cals = s.cals ∧ (holdFault s id cause).calCtl = s.calCtl ∧
    (holdFault s id cause).staged = s.staged ∧ (holdFault s id cause).fabric = s.fabric ∧
    (holdFault s id cause).mem = s.mem ∧ (holdFault s id cause).poison = s.poison ∧
    (holdFault s id cause).hbm = s.hbm ∧ (holdFault s id cause).rings = s.rings ∧
    (holdFault s id cause).xfers = s.xfers ∧ (holdFault s id cause).nextXfer = s.nextXfer ∧
    (holdFault s id cause).pci = s.pci ∧ (holdFault s id cause).failedOver = s.failedOver ∧
    (holdFault s id cause).hiLatch = s.hiLatch ∧ (holdFault s id cause).loHeld = s.loHeld ∧
    (holdFault s id cause).regQueue = s.regQueue ∧ (holdFault s id cause).eth = s.eth ∧
    (holdFault s id cause).ktp = s.ktp ∧ (holdFault s id cause).ptp = s.ptp ∧ (holdFault s id cause).sns = s.sns ∧
    (holdFault s id cause).ent = s.ent ∧ (holdFault s id cause).sup = s.sup ∧ (holdFault s id cause).errs = s.errs ∧
    (holdFault s id cause).avs = s.avs ∧ (holdFault s id cause).avsDev = s.avsDev ∧
    (holdFault s id cause).pwr = s.pwr ∧ (holdFault s id cause).thm = s.thm ∧ (holdFault s id cause).glb = s.glb ∧
    (holdFault s id cause).tel = s.tel ∧ (holdFault s id cause).nextFrame = s.nextFrame ∧
    (holdFault s id cause).epoch = s.epoch ∧ (holdFault s id cause).nets = s.nets ∧
    (holdFault s id cause).deliveries = s.deliveries := by
  and_intros <;> (unfold holdFault; simp)

@[simp] theorem drivePin_fields (s : State) (line : Nat) (name : String) (level : Bool) :
    (drivePin s line name level).pending = s.pending ∧ (drivePin s line name level).fresh = s.fresh ∧
    (drivePin s line name level).pgs = s.pgs ∧ (drivePin s line name level).tck = s.tck ∧
    (drivePin s line name level).cals = s.cals ∧ (drivePin s line name level).calCtl = s.calCtl ∧
    (drivePin s line name level).insts = s.insts ∧ (drivePin s line name level).staged = s.staged ∧
    (drivePin s line name level).clusters = s.clusters ∧ (drivePin s line name level).fabric = s.fabric ∧
    (drivePin s line name level).mem = s.mem ∧ (drivePin s line name level).poison = s.poison ∧
    (drivePin s line name level).hbm = s.hbm ∧ (drivePin s line name level).rings = s.rings ∧
    (drivePin s line name level).xfers = s.xfers ∧ (drivePin s line name level).nextXfer = s.nextXfer ∧
    (drivePin s line name level).pci = s.pci ∧ (drivePin s line name level).failedOver = s.failedOver ∧
    (drivePin s line name level).hiLatch = s.hiLatch ∧ (drivePin s line name level).loHeld = s.loHeld ∧
    (drivePin s line name level).regQueue = s.regQueue ∧ (drivePin s line name level).eth = s.eth ∧
    (drivePin s line name level).ktp = s.ktp ∧ (drivePin s line name level).ptp = s.ptp ∧
    (drivePin s line name level).sns = s.sns ∧ (drivePin s line name level).ent = s.ent ∧
    (drivePin s line name level).sup = s.sup ∧ (drivePin s line name level).errs = s.errs ∧
    (drivePin s line name level).avs = s.avs ∧ (drivePin s line name level).avsDev = s.avsDev ∧
    (drivePin s line name level).pwr = s.pwr ∧ (drivePin s line name level).thm = s.thm ∧
    (drivePin s line name level).glb = s.glb ∧ (drivePin s line name level).tel = s.tel ∧
    (drivePin s line name level).nextFrame = s.nextFrame ∧ (drivePin s line name level).epoch = s.epoch ∧
    (drivePin s line name level).nets = s.nets ∧ (drivePin s line name level).deliveries = s.deliveries := by
  and_intros <;> (unfold drivePin; split <;> simp)

@[simp] theorem pinSync1_fields (line : Nat) (name : String) (was now : Bool) (s : State) :
    (pinSync1 line name was now s).pending = s.pending ∧ (pinSync1 line name was now s).fresh = s.fresh ∧
    (pinSync1 line name was now s).pgs = s.pgs ∧ (pinSync1 line name was now s).tck = s.tck ∧
    (pinSync1 line name was now s).cals = s.cals ∧ (pinSync1 line name was now s).calCtl = s.calCtl ∧
    (pinSync1 line name was now s).insts = s.insts ∧ (pinSync1 line name was now s).staged = s.staged ∧
    (pinSync1 line name was now s).clusters = s.clusters ∧ (pinSync1 line name was now s).fabric = s.fabric ∧
    (pinSync1 line name was now s).mem = s.mem ∧ (pinSync1 line name was now s).poison = s.poison ∧
    (pinSync1 line name was now s).hbm = s.hbm ∧ (pinSync1 line name was now s).rings = s.rings ∧
    (pinSync1 line name was now s).xfers = s.xfers ∧ (pinSync1 line name was now s).nextXfer = s.nextXfer ∧
    (pinSync1 line name was now s).pci = s.pci ∧ (pinSync1 line name was now s).failedOver = s.failedOver ∧
    (pinSync1 line name was now s).hiLatch = s.hiLatch ∧ (pinSync1 line name was now s).loHeld = s.loHeld ∧
    (pinSync1 line name was now s).regQueue = s.regQueue ∧ (pinSync1 line name was now s).eth = s.eth ∧
    (pinSync1 line name was now s).ktp = s.ktp ∧ (pinSync1 line name was now s).ptp = s.ptp ∧
    (pinSync1 line name was now s).sns = s.sns ∧ (pinSync1 line name was now s).ent = s.ent ∧
    (pinSync1 line name was now s).sup = s.sup ∧ (pinSync1 line name was now s).errs = s.errs ∧
    (pinSync1 line name was now s).avs = s.avs ∧ (pinSync1 line name was now s).avsDev = s.avsDev ∧
    (pinSync1 line name was now s).pwr = s.pwr ∧ (pinSync1 line name was now s).thm = s.thm ∧
    (pinSync1 line name was now s).glb = s.glb ∧ (pinSync1 line name was now s).tel = s.tel ∧
    (pinSync1 line name was now s).nextFrame = s.nextFrame ∧ (pinSync1 line name was now s).epoch = s.epoch ∧
    (pinSync1 line name was now s).nets = s.nets ∧ (pinSync1 line name was now s).deliveries = s.deliveries := by
  and_intros <;> (unfold pinSync1; split <;> simp)

@[simp] theorem pinSync_fields (b s : State) :
    (pinSync b s).pending = s.pending ∧ (pinSync b s).fresh = s.fresh ∧ (pinSync b s).pgs = s.pgs ∧
    (pinSync b s).tck = s.tck ∧ (pinSync b s).cals = s.cals ∧ (pinSync b s).calCtl = s.calCtl ∧
    (pinSync b s).insts = s.insts ∧ (pinSync b s).staged = s.staged ∧ (pinSync b s).clusters = s.clusters ∧
    (pinSync b s).fabric = s.fabric ∧ (pinSync b s).mem = s.mem ∧ (pinSync b s).poison = s.poison ∧
    (pinSync b s).hbm = s.hbm ∧ (pinSync b s).rings = s.rings ∧ (pinSync b s).xfers = s.xfers ∧
    (pinSync b s).nextXfer = s.nextXfer ∧ (pinSync b s).pci = s.pci ∧ (pinSync b s).failedOver = s.failedOver ∧
    (pinSync b s).hiLatch = s.hiLatch ∧ (pinSync b s).loHeld = s.loHeld ∧ (pinSync b s).regQueue = s.regQueue ∧
    (pinSync b s).eth = s.eth ∧ (pinSync b s).ktp = s.ktp ∧ (pinSync b s).ptp = s.ptp ∧ (pinSync b s).sns = s.sns ∧
    (pinSync b s).ent = s.ent ∧ (pinSync b s).sup = s.sup ∧ (pinSync b s).errs = s.errs ∧ (pinSync b s).avs = s.avs ∧
    (pinSync b s).avsDev = s.avsDev ∧ (pinSync b s).pwr = s.pwr ∧ (pinSync b s).thm = s.thm ∧
    (pinSync b s).glb = s.glb ∧ (pinSync b s).tel = s.tel ∧ (pinSync b s).nextFrame = s.nextFrame ∧
    (pinSync b s).epoch = s.epoch ∧ (pinSync b s).nets = s.nets ∧ (pinSync b s).deliveries = s.deliveries := by
  and_intros <;> (unfold pinSync; simp)

@[simp] theorem sendMsix_fields (s : State) (cq : Nat) :
    (sendMsix s cq).pending = s.pending ∧ (sendMsix s cq).fresh = s.fresh ∧ (sendMsix s cq).tck = s.tck ∧
    (sendMsix s cq).cals = s.cals ∧ (sendMsix s cq).calCtl = s.calCtl ∧ (sendMsix s cq).insts = s.insts ∧
    (sendMsix s cq).staged = s.staged ∧ (sendMsix s cq).clusters = s.clusters ∧ (sendMsix s cq).fabric = s.fabric ∧
    (sendMsix s cq).mem = s.mem ∧ (sendMsix s cq).poison = s.poison ∧ (sendMsix s cq).hbm = s.hbm ∧
    (sendMsix s cq).rings = s.rings ∧ (sendMsix s cq).xfers = s.xfers ∧ (sendMsix s cq).nextXfer = s.nextXfer ∧
    (sendMsix s cq).pci = s.pci ∧ (sendMsix s cq).failedOver = s.failedOver ∧ (sendMsix s cq).hiLatch = s.hiLatch ∧
    (sendMsix s cq).loHeld = s.loHeld ∧ (sendMsix s cq).regQueue = s.regQueue ∧ (sendMsix s cq).eth = s.eth ∧
    (sendMsix s cq).ktp = s.ktp ∧ (sendMsix s cq).ptp = s.ptp ∧ (sendMsix s cq).sns = s.sns ∧
    (sendMsix s cq).ent = s.ent ∧ (sendMsix s cq).sup = s.sup ∧ (sendMsix s cq).errs = s.errs ∧
    (sendMsix s cq).avs = s.avs ∧ (sendMsix s cq).avsDev = s.avsDev ∧ (sendMsix s cq).pwr = s.pwr ∧
    (sendMsix s cq).thm = s.thm ∧ (sendMsix s cq).glb = s.glb ∧ (sendMsix s cq).tel = s.tel ∧
    (sendMsix s cq).nextFrame = s.nextFrame ∧ (sendMsix s cq).epoch = s.epoch ∧ (sendMsix s cq).nets = s.nets ∧
    (sendMsix s cq).deliveries = s.deliveries := by
  and_intros <;> (unfold sendMsix; simp)

@[simp] theorem postEntry_fields (s : State) (cq : Nat) (e : CqEntry) :
    (postEntry s cq e).pending = s.pending ∧ (postEntry s cq e).fresh = s.fresh ∧ (postEntry s cq e).tck = s.tck ∧
    (postEntry s cq e).cals = s.cals ∧ (postEntry s cq e).calCtl = s.calCtl ∧ (postEntry s cq e).insts = s.insts ∧
    (postEntry s cq e).staged = s.staged ∧ (postEntry s cq e).clusters = s.clusters ∧
    (postEntry s cq e).fabric = s.fabric ∧ (postEntry s cq e).mem = s.mem ∧ (postEntry s cq e).poison = s.poison ∧
    (postEntry s cq e).hbm = s.hbm ∧ (postEntry s cq e).xfers = s.xfers ∧ (postEntry s cq e).nextXfer = s.nextXfer ∧
    (postEntry s cq e).pci = s.pci ∧ (postEntry s cq e).failedOver = s.failedOver ∧
    (postEntry s cq e).hiLatch = s.hiLatch ∧ (postEntry s cq e).loHeld = s.loHeld ∧
    (postEntry s cq e).regQueue = s.regQueue ∧ (postEntry s cq e).eth = s.eth ∧ (postEntry s cq e).ktp = s.ktp ∧
    (postEntry s cq e).ptp = s.ptp ∧ (postEntry s cq e).sns = s.sns ∧ (postEntry s cq e).ent = s.ent ∧
    (postEntry s cq e).sup = s.sup ∧ (postEntry s cq e).errs = s.errs ∧ (postEntry s cq e).avs = s.avs ∧
    (postEntry s cq e).avsDev = s.avsDev ∧ (postEntry s cq e).pwr = s.pwr ∧ (postEntry s cq e).thm = s.thm ∧
    (postEntry s cq e).glb = s.glb ∧ (postEntry s cq e).tel = s.tel ∧ (postEntry s cq e).nextFrame = s.nextFrame ∧
    (postEntry s cq e).epoch = s.epoch ∧ (postEntry s cq e).nets = s.nets ∧
    (postEntry s cq e).deliveries = s.deliveries := by
  and_intros <;> (unfold postEntry; dsimp only; split <;> simp)

@[simp] theorem postEventOn_fields (s : State) (cq id : Nat) (held : Bool) (e : CqEntry) :
    (postEventOn s cq id held e).pending = s.pending ∧ (postEventOn s cq id held e).fresh = s.fresh ∧
    (postEventOn s cq id held e).tck = s.tck ∧ (postEventOn s cq id held e).cals = s.cals ∧
    (postEventOn s cq id held e).calCtl = s.calCtl ∧ (postEventOn s cq id held e).staged = s.staged ∧
    (postEventOn s cq id held e).clusters = s.clusters ∧ (postEventOn s cq id held e).fabric = s.fabric ∧
    (postEventOn s cq id held e).mem = s.mem ∧ (postEventOn s cq id held e).poison = s.poison ∧
    (postEventOn s cq id held e).hbm = s.hbm ∧ (postEventOn s cq id held e).xfers = s.xfers ∧
    (postEventOn s cq id held e).nextXfer = s.nextXfer ∧ (postEventOn s cq id held e).pci = s.pci ∧
    (postEventOn s cq id held e).failedOver = s.failedOver ∧ (postEventOn s cq id held e).hiLatch = s.hiLatch ∧
    (postEventOn s cq id held e).loHeld = s.loHeld ∧ (postEventOn s cq id held e).regQueue = s.regQueue ∧
    (postEventOn s cq id held e).eth = s.eth ∧ (postEventOn s cq id held e).ktp = s.ktp ∧
    (postEventOn s cq id held e).ptp = s.ptp ∧ (postEventOn s cq id held e).sns = s.sns ∧
    (postEventOn s cq id held e).ent = s.ent ∧ (postEventOn s cq id held e).sup = s.sup ∧
    (postEventOn s cq id held e).errs = s.errs ∧ (postEventOn s cq id held e).avs = s.avs ∧
    (postEventOn s cq id held e).avsDev = s.avsDev ∧ (postEventOn s cq id held e).pwr = s.pwr ∧
    (postEventOn s cq id held e).thm = s.thm ∧ (postEventOn s cq id held e).glb = s.glb ∧
    (postEventOn s cq id held e).tel = s.tel ∧ (postEventOn s cq id held e).nextFrame = s.nextFrame ∧
    (postEventOn s cq id held e).epoch = s.epoch ∧ (postEventOn s cq id held e).nets = s.nets ∧
    (postEventOn s cq id held e).deliveries = s.deliveries := by
  and_intros <;> (unfold postEventOn; split <;> [simp; (split <;> simp)])

@[simp] theorem postEvent_fields (s : State) (id code cause : Nat) :
    (postEvent s id code cause).pending = s.pending ∧ (postEvent s id code cause).tck = s.tck ∧
    (postEvent s id code cause).cals = s.cals ∧ (postEvent s id code cause).calCtl = s.calCtl ∧
    (postEvent s id code cause).staged = s.staged ∧ (postEvent s id code cause).clusters = s.clusters ∧
    (postEvent s id code cause).fabric = s.fabric ∧ (postEvent s id code cause).mem = s.mem ∧
    (postEvent s id code cause).poison = s.poison ∧ (postEvent s id code cause).hbm = s.hbm ∧
    (postEvent s id code cause).xfers = s.xfers ∧ (postEvent s id code cause).nextXfer = s.nextXfer ∧
    (postEvent s id code cause).pci = s.pci ∧ (postEvent s id code cause).failedOver = s.failedOver ∧
    (postEvent s id code cause).hiLatch = s.hiLatch ∧ (postEvent s id code cause).loHeld = s.loHeld ∧
    (postEvent s id code cause).regQueue = s.regQueue ∧ (postEvent s id code cause).eth = s.eth ∧
    (postEvent s id code cause).ktp = s.ktp ∧ (postEvent s id code cause).ptp = s.ptp ∧
    (postEvent s id code cause).sns = s.sns ∧ (postEvent s id code cause).ent = s.ent ∧
    (postEvent s id code cause).sup = s.sup ∧ (postEvent s id code cause).errs = s.errs ∧
    (postEvent s id code cause).avs = s.avs ∧ (postEvent s id code cause).avsDev = s.avsDev ∧
    (postEvent s id code cause).pwr = s.pwr ∧ (postEvent s id code cause).thm = s.thm ∧
    (postEvent s id code cause).glb = s.glb ∧ (postEvent s id code cause).tel = s.tel ∧
    (postEvent s id code cause).nextFrame = s.nextFrame ∧ (postEvent s id code cause).epoch = s.epoch ∧
    (postEvent s id code cause).nets = s.nets ∧ (postEvent s id code cause).deliveries = s.deliveries := by
  and_intros <;> (unfold postEvent; dsimp only; split <;> split <;> simp)

@[simp] theorem postRing_fields (n : Nat) (s : State) (r : Nat) :
    (postRing n s r).pending = s.pending ∧ (postRing n s r).fresh = s.fresh ∧ (postRing n s r).tck = s.tck ∧
    (postRing n s r).cals = s.cals ∧ (postRing n s r).calCtl = s.calCtl ∧ (postRing n s r).insts = s.insts ∧
    (postRing n s r).staged = s.staged ∧ (postRing n s r).clusters = s.clusters ∧
    (postRing n s r).fabric = s.fabric ∧ (postRing n s r).mem = s.mem ∧ (postRing n s r).poison = s.poison ∧
    (postRing n s r).hbm = s.hbm ∧ (postRing n s r).xfers = s.xfers ∧ (postRing n s r).nextXfer = s.nextXfer ∧
    (postRing n s r).pci = s.pci ∧ (postRing n s r).failedOver = s.failedOver ∧
    (postRing n s r).hiLatch = s.hiLatch ∧ (postRing n s r).loHeld = s.loHeld ∧
    (postRing n s r).regQueue = s.regQueue ∧ (postRing n s r).eth = s.eth ∧ (postRing n s r).ktp = s.ktp ∧
    (postRing n s r).ptp = s.ptp ∧ (postRing n s r).sns = s.sns ∧ (postRing n s r).ent = s.ent ∧
    (postRing n s r).sup = s.sup ∧ (postRing n s r).errs = s.errs ∧ (postRing n s r).avs = s.avs ∧
    (postRing n s r).avsDev = s.avsDev ∧ (postRing n s r).pwr = s.pwr ∧ (postRing n s r).thm = s.thm ∧
    (postRing n s r).glb = s.glb ∧ (postRing n s r).tel = s.tel ∧ (postRing n s r).nextFrame = s.nextFrame ∧
    (postRing n s r).epoch = s.epoch ∧ (postRing n s r).nets = s.nets ∧
    (postRing n s r).deliveries = s.deliveries := by
  induction n generalizing s with
  | zero => and_intros <;> rfl
  | succ n ih =>
    unfold postRing
    split
    · split
      · rename_i d rest _ _ e _
        have := ih (postEntry (modRing s r (fun x => { x with slots := rest })) (ringAt s r).cq e)
        simp only [postEntry_fields, modRing_fields] at this
        exact this
      · and_intros <;> rfl
    · and_intros <;> rfl

@[simp] theorem postHeld_fields (l : List (Nat × CqEntry)) (s : State) :
    (postHeld l s).pending = s.pending ∧ (postHeld l s).fresh = s.fresh ∧ (postHeld l s).tck = s.tck ∧
    (postHeld l s).cals = s.cals ∧ (postHeld l s).calCtl = s.calCtl ∧ (postHeld l s).insts = s.insts ∧
    (postHeld l s).staged = s.staged ∧ (postHeld l s).clusters = s.clusters ∧ (postHeld l s).fabric = s.fabric ∧
    (postHeld l s).mem = s.mem ∧ (postHeld l s).poison = s.poison ∧ (postHeld l s).hbm = s.hbm ∧
    (postHeld l s).xfers = s.xfers ∧ (postHeld l s).nextXfer = s.nextXfer ∧ (postHeld l s).pci = s.pci ∧
    (postHeld l s).failedOver = s.failedOver ∧ (postHeld l s).hiLatch = s.hiLatch ∧
    (postHeld l s).loHeld = s.loHeld ∧ (postHeld l s).regQueue = s.regQueue ∧ (postHeld l s).eth = s.eth ∧
    (postHeld l s).ktp = s.ktp ∧ (postHeld l s).ptp = s.ptp ∧ (postHeld l s).sns = s.sns ∧
    (postHeld l s).ent = s.ent ∧ (postHeld l s).sup = s.sup ∧ (postHeld l s).errs = s.errs ∧
    (postHeld l s).avs = s.avs ∧ (postHeld l s).avsDev = s.avsDev ∧ (postHeld l s).pwr = s.pwr ∧
    (postHeld l s).thm = s.thm ∧ (postHeld l s).glb = s.glb ∧ (postHeld l s).tel = s.tel ∧
    (postHeld l s).nextFrame = s.nextFrame ∧ (postHeld l s).epoch = s.epoch ∧ (postHeld l s).nets = s.nets ∧
    (postHeld l s).deliveries = s.deliveries := by
  induction l generalizing s with
  | nil => and_intros <;> rfl
  | cons a t ih =>
    rw [show postHeld (a :: t) s = postHeld t (postEntry s a.1 a.2) from rfl]
    simpa only [postEntry_fields] using ih (postEntry s a.1 a.2)

@[simp] theorem postRings_fields (owner : Nat) (l : List Nat) (s : State) :
    (postRings owner l s).pending = s.pending ∧ (postRings owner l s).fresh = s.fresh ∧
    (postRings owner l s).tck = s.tck ∧ (postRings owner l s).cals = s.cals ∧
    (postRings owner l s).calCtl = s.calCtl ∧ (postRings owner l s).insts = s.insts ∧
    (postRings owner l s).staged = s.staged ∧ (postRings owner l s).clusters = s.clusters ∧
    (postRings owner l s).fabric = s.fabric ∧ (postRings owner l s).mem = s.mem ∧
    (postRings owner l s).poison = s.poison ∧ (postRings owner l s).hbm = s.hbm ∧
    (postRings owner l s).xfers = s.xfers ∧ (postRings owner l s).nextXfer = s.nextXfer ∧
    (postRings owner l s).pci = s.pci ∧ (postRings owner l s).failedOver = s.failedOver ∧
    (postRings owner l s).hiLatch = s.hiLatch ∧ (postRings owner l s).loHeld = s.loHeld ∧
    (postRings owner l s).regQueue = s.regQueue ∧ (postRings owner l s).eth = s.eth ∧
    (postRings owner l s).ktp = s.ktp ∧ (postRings owner l s).ptp = s.ptp ∧ (postRings owner l s).sns = s.sns ∧
    (postRings owner l s).ent = s.ent ∧ (postRings owner l s).sup = s.sup ∧ (postRings owner l s).errs = s.errs ∧
    (postRings owner l s).avs = s.avs ∧ (postRings owner l s).avsDev = s.avsDev ∧ (postRings owner l s).pwr = s.pwr ∧
    (postRings owner l s).thm = s.thm ∧ (postRings owner l s).glb = s.glb ∧ (postRings owner l s).tel = s.tel ∧
    (postRings owner l s).nextFrame = s.nextFrame ∧ (postRings owner l s).epoch = s.epoch ∧
    (postRings owner l s).nets = s.nets ∧ (postRings owner l s).deliveries = s.deliveries := by
  induction l generalizing s with
  | nil => and_intros <;> rfl
  | cons a t ih =>
    rw [show postRings owner (a :: t) s = postRings owner t (if (ringAt s a).owner = owner ∧ !(ringAt s a).kind then
      postRing (ringAt s a).slots.length s a else s) from rfl]
    split
    · simpa only [postRing_fields] using ih (postRing (ringAt s a).slots.length s a)
    · exact ih s

@[simp] theorem postOwner_fields (s : State) (owner : Nat) :
    (postOwner s owner).pending = s.pending ∧ (postOwner s owner).fresh = s.fresh ∧ (postOwner s owner).tck = s.tck ∧
    (postOwner s owner).cals = s.cals ∧ (postOwner s owner).calCtl = s.calCtl ∧
    (postOwner s owner).staged = s.staged ∧ (postOwner s owner).clusters = s.clusters ∧
    (postOwner s owner).fabric = s.fabric ∧ (postOwner s owner).mem = s.mem ∧ (postOwner s owner).poison = s.poison ∧
    (postOwner s owner).hbm = s.hbm ∧ (postOwner s owner).xfers = s.xfers ∧
    (postOwner s owner).nextXfer = s.nextXfer ∧ (postOwner s owner).pci = s.pci ∧
    (postOwner s owner).failedOver = s.failedOver ∧ (postOwner s owner).hiLatch = s.hiLatch ∧
    (postOwner s owner).loHeld = s.loHeld ∧ (postOwner s owner).regQueue = s.regQueue ∧
    (postOwner s owner).eth = s.eth ∧ (postOwner s owner).ktp = s.ktp ∧ (postOwner s owner).ptp = s.ptp ∧
    (postOwner s owner).sns = s.sns ∧ (postOwner s owner).ent = s.ent ∧ (postOwner s owner).sup = s.sup ∧
    (postOwner s owner).errs = s.errs ∧ (postOwner s owner).avs = s.avs ∧ (postOwner s owner).avsDev = s.avsDev ∧
    (postOwner s owner).pwr = s.pwr ∧ (postOwner s owner).thm = s.thm ∧ (postOwner s owner).glb = s.glb ∧
    (postOwner s owner).tel = s.tel ∧ (postOwner s owner).nextFrame = s.nextFrame ∧
    (postOwner s owner).epoch = s.epoch ∧ (postOwner s owner).nets = s.nets ∧
    (postOwner s owner).deliveries = s.deliveries := by
  and_intros <;> simp [postOwner]

@[simp] theorem finishDesc_fields (s : State) (r seq status result : Nat) :
    (finishDesc s r seq status result).pending = s.pending ∧ (finishDesc s r seq status result).tck = s.tck ∧
    (finishDesc s r seq status result).cals = s.cals ∧ (finishDesc s r seq status result).calCtl = s.calCtl ∧
    (finishDesc s r seq status result).insts = s.insts ∧ (finishDesc s r seq status result).staged = s.staged ∧
    (finishDesc s r seq status result).clusters = s.clusters ∧ (finishDesc s r seq status result).fabric = s.fabric ∧
    (finishDesc s r seq status result).mem = s.mem ∧ (finishDesc s r seq status result).poison = s.poison ∧
    (finishDesc s r seq status result).hbm = s.hbm ∧ (finishDesc s r seq status result).xfers = s.xfers ∧
    (finishDesc s r seq status result).nextXfer = s.nextXfer ∧ (finishDesc s r seq status result).pci = s.pci ∧
    (finishDesc s r seq status result).failedOver = s.failedOver ∧
    (finishDesc s r seq status result).hiLatch = s.hiLatch ∧ (finishDesc s r seq status result).loHeld = s.loHeld ∧
    (finishDesc s r seq status result).regQueue = s.regQueue ∧ (finishDesc s r seq status result).eth = s.eth ∧
    (finishDesc s r seq status result).ktp = s.ktp ∧ (finishDesc s r seq status result).ptp = s.ptp ∧
    (finishDesc s r seq status result).sns = s.sns ∧ (finishDesc s r seq status result).ent = s.ent ∧
    (finishDesc s r seq status result).sup = s.sup ∧ (finishDesc s r seq status result).errs = s.errs ∧
    (finishDesc s r seq status result).avs = s.avs ∧ (finishDesc s r seq status result).avsDev = s.avsDev ∧
    (finishDesc s r seq status result).pwr = s.pwr ∧ (finishDesc s r seq status result).thm = s.thm ∧
    (finishDesc s r seq status result).glb = s.glb ∧ (finishDesc s r seq status result).tel = s.tel ∧
    (finishDesc s r seq status result).nextFrame = s.nextFrame ∧ (finishDesc s r seq status result).epoch = s.epoch ∧
    (finishDesc s r seq status result).nets = s.nets ∧
    (finishDesc s r seq status result).deliveries = s.deliveries := by
  and_intros <;> (unfold finishDesc; dsimp only; split <;> split <;> simp)

/-! ### What page headers, clusters and instances read as -/

theorem hdrAt_modHdr (s : State) (pg : Nat) (f : PgHdr → PgHdr) (q : Nat) :
    hdrAt (modHdr s pg f) q = if q = pg then f (hdrAt s pg) else hdrAt s q := mget_mmod s.pgs {} pg f q

theorem hdrAt_modHdr_ne (s : State) {pg q : Nat} (f : PgHdr → PgHdr) (h : q ≠ pg) :
    hdrAt (modHdr s pg f) q = hdrAt s q := by simp [hdrAt_modHdr, h]

theorem hdrAt_touch_ne (s : State) {pg q : Nat} (h : q ≠ pg) : hdrAt (touch s pg) q = hdrAt s q := hdrAt_modHdr_ne s _ h

theorem hdrAt_bumpBy_ne (s : State) {pg q : Nat} (n k : Nat) (h : q ≠ pg) : hdrAt (bumpBy s pg n k) q = hdrAt s q :=
  hdrAt_modHdr_ne s _ h

theorem hdrAt_pgErr_ne (s : State) {pg q : Nat} (n : Nat) (h : q ≠ pg) : hdrAt (pgErr s pg n) q = hdrAt s q :=
  hdrAt_modHdr_ne s _ h

/-- Two states with the same headers read the same. -/
theorem hdrAt_congr {s t : State} (h : t.pgs = s.pgs) (q : Nat) : hdrAt t q = hdrAt s q := by unfold hdrAt; rw [h]

/-- Writing a log entry touches the headers of the ERR page alone (R399). -/
theorem hdrAt_logErr_ne (s : State) (r : Report) {q : Nat} (h : q ≠ 6) : hdrAt (logErr s r) q = hdrAt s q := by
  unfold logErr
  dsimp only
  split
  · exact (hdrAt_bumpBy_ne _ _ _ h).trans (hdrAt_bumpBy_ne _ _ _ h)
  · exact hdrAt_bumpBy_ne _ _ _ h

theorem clusterAt_setCluster (s : State) (c : Nat) (k : Cluster) (d : Nat) :
    clusterAt (setCluster s c k) d = if d = c then k else clusterAt s d := mget_mset s.clusters {} c k d

theorem clusterAt_modCluster (s : State) (c : Nat) (f : Cluster → Cluster) (d : Nat) :
    clusterAt (modCluster s c f) d = if d = c then f (clusterAt s c) else clusterAt s d :=
  clusterAt_setCluster s c _ d

theorem instAt_setInst (s : State) (i : Nat) (x : Inst) (j : Nat) :
    instAt (setInst s i x) j = if j = i then x else instAt s j := mget_mset s.insts {} i x j

theorem instAt_modInst (s : State) (i : Nat) (f : Inst → Inst) (j : Nat) :
    instAt (modInst s i f) j = if j = i then f (instAt s i) else instAt s j := instAt_setInst s i _ j

theorem calAt_setCal (s : State) (c : Nat) (x : Cal) (d : Nat) :
    calAt (setCal s c x) d = if d = c then x else calAt s d := mget_mset s.cals {} c x d

theorem ringAt_setRing (s : State) (r : Nat) (x : Ring) (q : Nat) :
    ringAt (setRing s r x) q = if q = r then x else ringAt s q := mget_mset s.rings {} r x q

theorem sprigAt_setSprig (k : Cluster) (p : Nat) (x : Sprig) (q : Nat) :
    sprigAt (setSprig k p x) q = if q = p then x else sprigAt k q := mget_mset k.sprigs {} p x q

theorem ctxAt_setCtx (x : Sprig) (i : Fin 4) (v : Ctx) (j : Fin 4) :
    ctxAt (setCtx x i v) j = if j = i then v else ctxAt x j := by
  match i, j with
  | 0, 0 => rfl | 0, 1 => rfl | 0, 2 => rfl | 0, 3 => rfl
  | 1, 0 => rfl | 1, 1 => rfl | 1, 2 => rfl | 1, 3 => rfl
  | 2, 0 => rfl | 2, 1 => rfl | 2, 2 => rfl | 2, 3 => rfl
  | 3, 0 => rfl | 3, 1 => rfl | 3, 2 => rfl | 3, 3 => rfl

end Sys2Proof.Machine
end

