-- ==== Sys2Proof/Laws/Mesh.lean ====
section
/-! SUPPORT. Laws/Mesh.lean: what running a hedge's mesh and slice ports, or a cluster's SU engines, can do: what every cycle keeps
the run keeps, and with nothing under way the run changes nothing. -/

namespace Sys2Proof.Machine

@[simp] theorem netAt_modNet_self (s : State) (h : Nat) (f : Net → Net) : netAt (modNet s h f) h = f (netAt s h) := by
  simp [netAt, modNet, mmod]

/-- What every cycle keeps, running to a cycle keeps. -/
theorem netTo_keeps {β : Type} (p : State → β) (h upto : Nat) (hk : ∀ s t, p (netCycle s h t) = p s) (n : Nat) (s : State) :
    p (netTo h upto n s) = p s := by
  induction n generalizing s with
  | zero => rfl
  | succ n ih =>
    unfold netTo
    split
    · split
      · rw [ih, hk]
      · rfl
    · rfl

/-- What every cycle keeps, running until a condition keeps. -/
theorem netUntil_keeps {β : Type} (p : State → β) (h : Nat) (q : State → Bool) (hk : ∀ s t, p (netCycle s h t) = p s) (n : Nat)
    (s : State) : p (netUntil h q n s) = p s := by
  induction n generalizing s with
  | zero => rfl
  | succ n ih =>
    unfold netUntil
    split
    · rfl
    · split
      · rw [ih, hk]
      · rfl

/-- With nothing under way nothing moves. -/
theorem netTo_idle (h upto : Nat) (n : Nat) (s : State) (hn : netNext (netAt s h) = none) : netTo h upto n s = s := by
  cases n <;> simp [netTo, hn]

theorem netUntil_idle (h : Nat) (q : State → Bool) (n : Nat) (s : State) (hn : netNext (netAt s h) = none) :
    netUntil h q n s = s := by
  cases n <;> simp [netUntil, hn]

/-- A condition that holds already stops the run at once. -/
theorem netUntil_done (h : Nat) (q : State → Bool) (n : Nat) (s : State) (hq : q s = true) : netUntil h q n s = s := by
  cases n <;> simp [netUntil, hq]

/-- An instruction that accesses the store finds the state as it is when its hedge's mesh is idle. -/
theorem storeReady_idle (s : State) (c p : Nat) (w : Word) (rs : List Nat)
    (hn : netNext (netAt s (clusterAt s c).owner) = none) : storeReady s c p w rs = s := by
  simp only [storeReady]
  split
  · exact netTo_idle _ _ _ _ hn
  · rfl

/-- Engines without a command that takes steps stand still. -/
theorem suAdvance_idle (c t n : Nat) (s : State) (h1 : sweepNext (clusterAt s c).su = none) (h2 : bndNext (clusterAt s c).su = none) :
    suAdvance c t n s = s := by
  cases n <;> simp [suAdvance, h1, h2]

end Sys2Proof.Machine
end

