-- ==== Sys2Proof/Laws/Store.lean ====
section
/-! SUPPORT. Laws/Store.lean: what the shared operations of Machine/Store.lean can do: which fields of a cluster they change, which
writes a list of landings holds and in which order, and what a reader sees of them. -/

namespace Sys2Proof.Machine

/-- A write to a cluster store changes its contents, its poison and the notes on its carried area, nothing else. -/
theorem storeWrite_frame (k : Cluster) (a : Nat) (bs : List Byte) :
    storeWrite k a bs = { k with
      store := writeBytes k.store a bs, poison := (storeWrite k a bs).poison, carried := (storeWrite k a bs).carried } := rfl

theorem land_frame (k : Cluster) (e : Landing) : land k e = { k with landing := landIn e k.landing } := rfl

/-- What a list of writes on their way holds once one more has joined it. -/
theorem mem_landIn (e x : Landing) (l : List Landing) : x ∈ landIn e l ↔ x = e ∨ x ∈ l := by
  induction l with
  | nil => simp [landIn]
  | cons y t ih =>
    unfold landIn
    split
    · simp [ih]; tauto
    · simp

/-- The writes on their way stay in the order of the cycles in which they are sure. -/
theorem landIn_ordered (e : Landing) (l : List Landing) (h : l.Pairwise fun x y => x.hi ≤ y.hi) :
    (landIn e l).Pairwise fun x y => x.hi ≤ y.hi := by
  induction l with
  | nil => simp [landIn]
  | cons y t ih =>
    rw [List.pairwise_cons] at h
    unfold landIn
    split
    · rename_i hy
      refine List.pairwise_cons.mpr ⟨fun z hz => ?_, ih h.2⟩
      rcases (mem_landIn e z t).mp hz with rfl | hz
      · exact hy
      · exact h.1 z hz
    · rename_i hy
      refine List.pairwise_cons.mpr ⟨fun z hz => ?_, List.pairwise_cons.mpr h⟩
      rcases List.mem_cons.mp hz with rfl | hz
      · omega
      · have := h.1 z hz; omega

/-- A range lands without a change to anything but the list of writes on their way. -/
theorem landRange_frame (k : Cluster) (lo hi a : Nat) (bs : List Byte) :
    landRange k lo hi a bs = { k with landing := (landRange k lo hi a bs).landing } := by
  unfold landRange
  generalize lineRuns (bs.length / 64 + 2) a bs = l
  induction l generalizing k with
  | nil => rfl
  | cons p t ih => rw [List.foldl_cons, ih]; rfl

/-- With nothing on its way a reader sees the store as it stands. -/
theorem storeSeen_settled (k : Cluster) (lo hi n : Nat) (h : k.landing = []) : storeSeen k lo hi n = (k.store, 0) := by
  simp [storeSeen, h]

theorem settleAll_settled (k : Cluster) (h : k.landing = []) : settleAll k = k := by
  cases k; simp_all [settleAll]

end Sys2Proof.Machine
end

