-- ==== Sys2Proof/Tests/Slice0.lean ====
section
/-! SUPPORT. Tests/Slice0.lean: small checks of the model. test_… states what one operation answers on a small input, from a
worked example or a table of the spec; witness_… shows, for the statement of that name in Certificates/Slice0/Obligations.lean,
states and operands that meet the hypotheses of its clauses. -/

namespace Sys2Proof.Tests

-- one theorem after the other: each kernel evaluation has a thread's stack to itself
set_option Elab.async false

open Sys2Proof Sys2Proof.Machine

/-! ### Small states -/

/-- A device that has started, its tick unit not running. -/
def up : State :=
  { State.reset with
    glb := { State.reset.glb with stage := 7, ready := true, t0 := true, diesC := 0xFF, perst := true },
    pwr := { State.reset.pwr with inputOk := true, holdOk := true } }

/-- The same with the tick unit running, in a phase. -/
def inPhase (ph : Phase) : State := { up with tck := { up.tck with running := true, phase := ph } }

/-- An instance of one cluster, its first segment a plain host segment of one frame. -/
def inst (st : IState) : Inst :=
  { st := st, w := 1, h := 1, vfEnabled := true, segs := [(0, 0x80000000), (1, 0x00300000)] }

/-- Instance 1 as given, in a phase. -/
def withInst (ph : Phase) (i : Inst) : State := { inPhase ph with insts := [(1, i)] }

/-- Cluster 0 as given, of instance 1, which is RUNNING. -/
def withCluster (ph : Phase) (k : Cluster) : State := { withInst ph (inst .running) with clusters := [(0, { k with owner := 1 })] }

/-- Sprig 0 of cluster 0 about to issue a word. -/
def atWord (w : Word) : State := withCluster .work { sprigs := [(0, { prog := 1, imem := [(0, w)] })] }

/-- Submit ring 4 of an owner with one descriptor, and its completion ring 5. -/
def withDesc (i : Inst) (owner : Nat) (d : BitVec 512) : State :=
  { withInst .openP i with
    rings := [(4, {
        enable := true, owner := owner, cq := 5, nextSeq := 1,
        slots := [{ seq := 0, desc := d, begun := false, headAfter := 1, entry := none }] }),
      (5, { enable := true, kind := true, owner := owner })] }

/-- The slot of that descriptor. -/
def slotOf (d : BitVec 512) : RingSlot := { seq := 0, desc := d, begun := false, headAfter := 1, entry := none }

/-- BAR0 writes every page of a device that has started. -/
theorem bar0_up (pg : Nat) : Bar0 up pg := ⟨rfl, .inl rfl, rfl⟩

/-- Format A with registers 1, 2 and 3, its predicate p0 or its inverse. -/
def fa (off : Bool) (fn : BitVec 7) : FmtA := { pred := 0, pneg := off, rd := 1, rs1 := 2, rs2 := 3, fn := fn }
def fb (off : Bool) : FmtB := { pred := 0, pneg := off, rd := 1, rs1 := 2, imm := 4 }
def fc (off : Bool) (imm : BitVec 22) : FmtC := { pred := 0, pneg := off, imm := imm }

/-! ### Well-formedness refuses what it should -/

def tickIn (n : Nat) : BoundaryIn :=
  { phaseErr := 0, temps := List.replicate n 0, coolant := 0, inputW := 0, marginShort := 0, marginOver := 0, noMaster := 0,
    seedLate := [] }

theorem test_wf_accepts : wf (.tickBoundary (tickIn 20)) = true ∧ wf (.commitPoint 1) = true ∧ wf (.add 0 0 (fa false 0)) = true ∧
    wf (.registerRead 0 4 8) = true ∧ wf (.pop 0 0 (fa false 4)) = true ∧ wf (.srd 0 0 (fa false 6)) = true := by decide

theorem test_wf_tickBoundary : wf (.tickBoundary (tickIn 19)) = false := by decide

theorem test_wf_instance_0 : ∀ i ∈ ([.commitPoint 0, .planLoadComplete 0, .abortResend 0, .segmentZeroed 0 0,
    .resetSequenceEnd 0, .vfFlr 0, .segmentEntryWrite 0 0 0 0, .endMarkerReached 0, .checkpoint 0, .checkpointResult 0,
    .suaStagedWrite 0 0 0, .bestClr 0, .ktAckSend 0 0, .ktRetransmit 0 0 0, .channelEntryWrite 0 0 0 0, .keepLoad 0,
    .vfEnable 0 true] : List Instr), wf i = false := by decide

theorem test_wf_lengths : wf (.patrolScrubStep 0 6401 []) = false ∧ wf (.pcMigrationStep 0 (21457 * 128 + 1)) = false := by
  decide

theorem test_wf_dmaIn : wf (.dmaIn 4 (List.replicate (2 ^ 30 + 1) 0)) = false := by
  simp only [wf, List.length_replicate]
  decide

theorem test_wf_predicate : ∀ i ∈ ([.xfer 0 0 (fa true 0), .push 0 0 (fa true 0), .pop 0 0 (fa true 0), .peek 0 0 (fa true 0),
    .rnd 0 0 (fa true 0), .loop 0 0 (fc true 0), .qset 0 0 (fc true 0), .endI 0 0 (fc true 0), .idle 0 0 (fc true 0),
    .mec 0 0 { fa true 0 with rs1 := 4 }, .suc 0 0 (fa true 0), .drc 0 0 (fa true 0)] : List Instr), wf i = false := by decide

theorem test_wf_fields : ∀ i ∈ ([.mec 0 0 (fa false 0), .suc 0 0 { fa false 0 with rs1 := 1 }, .drc 0 0 { fa false 0 with rs1 := 3 },
    .pop 0 0 (fa false 5), .peek 0 0 (fa false 7), .fcvt 0 0 (fa false 6), .srd 0 0 (fa false 7)] : List Instr), wf i = false := by
  decide

theorem test_wf_addresses : ∀ i ∈ ([.errorInject 2 0, .errorInjectFire 1, .pgCtlFreeze 3 true, .pgCtlClear 2, .pageLock 2 true,
    .rcFieldRead 0 2, .registerWrite 0 0 0 3, .registerRead 0 0 5] : List Instr), wf i = false := by decide

/-! ### Words written out from 07_sprigs.md -/

/-- The worked examples of 07_sprigs.md: LUI g1, 0x3D80; LOOP 0, LAST 4, COUNT 512; POP g2, W; FMUL g3, g2, g1; PUSH E, g3; END. -/
theorem test_words : wordC 0x16 (fc false (0x20000 + 0x3D80)) = 0x58023D80 ∧
    wordC 0x38 (fc false (4 * 8192 + 511)) = 0xE00081FF ∧
    wordA 0x31 { pred := 0, pneg := false, rd := 2, rs1 := 0, rs2 := 0, fn := 3 } = 0xC4040003 ∧
    wordA 0x22 { pred := 0, pneg := false, rd := 3, rs1 := 2, rs2 := 1, fn := 0 } = 0x88062080 ∧
    wordA 0x30 { pred := 0, pneg := false, rd := 0, rs1 := 3, rs2 := 0, fn := 1 } = 0xC0003001 ∧
    wordC 0x3A (fc false 0) = 0xE8000000 := by decide

/-- No row of the table gives bits, so no word spells a command. -/
theorem test_decodeTableWord : decodeTableWord 32 0x58023D80 = none := by decide

/-! ### Witnesses: the tick unit -/

theorem witness_step_runs_the_front_command :
    ({ up with pending := [.workStart, .lockAcquired] } : State).pending = .workStart :: [.lockAcquired] ∧ up.pending = [] :=
  ⟨rfl, rfl⟩

theorem witness_tick_unit_stays_legal :
    TickInv { up with tck := { up.tck with period := 50, slew := 1000 }, pending := [.workStart] } ∧
    TickInv { up with tck := { up.tck with period := 100000, slew := 0, src := 2 } } ∧
    step { up with pending := [.workStart] } = .next up := by
  refine ⟨⟨by decide, by decide, by decide, by decide⟩, ⟨by decide, by decide, by decide, by decide⟩, rfl⟩

theorem witness_memories_stay_canonical :
    MemInv { up with mem := [(0, 1), (7, 255)] } ∧ step { up with mem := [(0, 1), (7, 255)], pending := [.workStart] } =
      .next { up with mem := [(0, 1), (7, 255)] } := ⟨⟨rfl, rfl⟩, rfl⟩

theorem witness_device_tick_moves_only_at_boundaries : movesDevTick .workStart = false ∧ exec .workStart up = .next up :=
  ⟨rfl, rfl⟩

theorem witness_boundaries_and_phases :
    ((inPhase .commit).tck.running = true ∧ (inPhase .commit).pwr.on = true ∧ (inPhase .commit).tck.phase = .commit) ∧
    (let s : State := { inPhase .openP with tck := { (inPhase .openP).tck with nextIndex := some 5 } }
     s.tck.running = true ∧ s.pwr.on = true ∧ s.tck.nextIndex.isSome = true) ∧
    (∀ ph, ticking (inPhase ph) = true ∧ (inPhase ph).tck.phase = ph ∧ (inPhase ph).fabric.stitchPend = [] ∧ 1 ∉ runningIds (inPhase ph)) ∧
    (let s : State := { inPhase .coppice with fabric := { up.fabric with stitchPend := [(5, true)] } }
     ticking s = true ∧ s.tck.phase = .coppice ∧ (5, true) ∈ s.fabric.stitchPend ∧ (∀ p ∈ s.fabric.stitchPend, p.1 ≠ 6)) ∧
    (inPhase .work).tck.phase ≠ .openP ∧ (inPhase .commit).tck.phase ≠ .work ∧ (inPhase .openP).tck.phase ≠ .coppice := by
  refine ⟨by decide, by decide, fun ph => by cases ph <;> decide, by decide, by decide, by decide, by decide⟩

theorem witness_tick_registers_wait_for_the_boundary :
    Bar0 up pgTck ∧ ({ up with tck := { up.tck with periodStaged := some 49 } } : State).tck.periodStaged = some 49 ∧
    ({ up with tck := { up.tck with periodStaged := some 100001 } } : State).tck.periodStaged = some 100001 ∧
    (∀ w ∈ ([0x3, 0x3E90, 0x3E82] : List Word),
      ({ up with tck := { up.tck with cfgStaged := some w } } : State).tck.cfgStaged = some w) ∧
    (0x3 : Word).extractLsb' 0 2 = 3 ∧ 1000 < ((0x3E90 : Word).extractLsb' 4 10).toNat ∧
    (0x3E82 : Word).extractLsb' 0 2 ≠ 3 ∧ ((0x3E82 : Word).extractLsb' 4 10).toNat ≤ 1000 := by
  refine ⟨bar0_up _, rfl, rfl, fun w _ => rfl, by decide, by decide, by decide, by decide⟩

theorem witness_start_and_step :
    Bar0 up pgTck ∧ up.tck.running = false ∧ Bar0 (inPhase .openP) pgTck ∧ (inPhase .openP).tck.running = true ∧
    anyRunning (withInst .openP (inst .running)) = true ∧ anyRunning (inPhase .openP) = false ∧
    ({ inPhase .openP with tck := { (inPhase .openP).tck with src := 1 } } : State).tck.src = 1 ∧
    1 ≤ up.tck.period ∧ gridIndex up.tck 0 = 1 ∧
    (let s : State := { withInst .openP (inst .held) with tck := { up.tck with stepPending := true, nextIndex := some 9 } }
     s.tck.stepPending = true ∧ s.tck.nextIndex = some 9 ∧ (instAt s 1).st ≠ .empty) :=
  ⟨bar0_up _, rfl, ⟨rfl, .inl rfl, rfl⟩, rfl, by decide, by decide, rfl, by decide, by decide, by decide⟩

theorem witness_input_edges :
    lineOk up 0 = true ∧ lineOk up 1 = true ∧
    (let s : State := { up with tck := { up.tck with running := true, src := 2 } }
     s.tck.src = 2 ∧ s.tck.running = true ∧ s.tck.missed ≠ 2 ∧ s.tck.nextIndex = none ∧ lineOk s 0 = true) ∧
    (50000 ≤ 50000 ∧ 49999 < 50000 ∧ (-2000 : Int) ≤ -2000 ∧ (2000 : Int) ≤ 2000 ∧ (2000 : Int) < 2001 ∧
      500000000 ≤ 500000000 ∧ 100 ≤ 100 ∧ 99 < 100) ∧
    ({ up with tck := { up.tck with running := true, src := 2, missed := 2 } } : State).tck.missed = 2 ∧
    (∀ n : Fin 4, trigIsInput { up with pwr := { up.pwr with trig := 0x1111 } } n = true ∧
      lineOk { up with pwr := { up.pwr with trig := 0x1111 } } (2 + n.val) = true) := by decide

theorem witness_lock_and_followers :
    (let s : State := { inPhase .openP with tck := { (inPhase .openP).tck with goodTicks := 16 } }
     s.tck.running = true ∧ 16 ≤ s.tck.goodTicks ∧ s.tck.srcLost = false) ∧
    (let s : State := { up with tck := { up.tck with src := 1 } }
     s.tck.src ≠ 0 ∧ s.tck.srcLost = false) ∧
    ({ up with tck := { up.tck with srcLost := true } } : State).tck.srcLost = true ∧
    (let s : State := { withInst .work (inst .running) with tck := { (inPhase .work).tck with followerTicks := [(0, 1000)] } }
     1000 ≤ mget s.tck.followerTicks 0 (0 : Die).val ∧ 1 ∈ instsOnDie s 0 ∧ (instAt s 1).st = .running) := by decide

theorem witness_calendar_changes_wait :
    (∀ c : CalId, Bar0 up (pgCal c.val)) ∧ Bar0 up 8 ∧
    (calAt { up with cals := [(0, { pending := true })] } 0).pending = true ∧
    (swapRefusals up { up with cals := [(0, { pending := true, shadow := [(0, 7)] })] } 0) = (false, false, false) ∧
    (let s : State := { withInst .openP (inst .running) with cals := [(0, { pending := true, shadow := [(0, 1), (1, 65)] })] }
     (swapRefusals s s 0).1 = true ∧ (swapRefusals s s 0).2.1 = true) ∧
    (let s : State := { withInst .openP { inst .held with zeroing := [0] } with cals := [(0, { pending := true, table := [(0, 1)] })] }
     (swapRefusals s s 0).2.2 = true) :=
  ⟨fun _ => bar0_up _, bar0_up _, rfl, by decide, by decide, by decide⟩

theorem witness_slot_outcome :
    (instAt (withInst .commit (inst .running)) 1).st = .running ∧
    (let i := instAt (withInst .commit { inst .running with committed := true, consec := 2 }) 1
     i.st = .running ∧ i.committed = true) ∧
    (let i := instAt (withInst .commit { inst .running with dMissed := true, consec := 2 }) 1
     i.st = .running ∧ i.committed = false) ∧
    (let s : State := { withInst .commit (inst .running) with staged := [{ inst := 1, mgmt := false, op := .stop, ring := 4, seq := 0 }] }
     (instAt s 1).st = .running ∧ leavesNow s 1 = true) := by decide

/-- A KT_SEND of instance 1 that has not ended. -/
def sendOf : Transfer :=
  { id := 0, ring := 0, seq := 0, kind := .send 0 0, inst := 1, host := 0, va := 0, len := 64, base := 0, wrap := 0, pcie := 0,
    spine := 0, moved := 0, status := 0, dead := false, data := [] }

theorem witness_commit_and_mirror :
    (let s := withCluster .commit {}
     ticking s = true ∧ s.tck.phase = .commit ∧ Working (instAt s (1 : InstId).val) ∧ sendsLeft s 1 = []) ∧
    (let s : State := { withInst .commit (inst .running) with xfers := [sendOf] }
     ticking s = true ∧ s.tck.phase = .commit ∧ Working (instAt s (1 : InstId).val) ∧ sendsLeft s 1 ≠ []) ∧
    (inPhase .work).tck.phase ≠ .commit ∧
    (∀ ph ∈ [Phase.commit, Phase.openP],
      let s := withCluster ph { carried := { lines := [0], mirror := some 4096, mirrorDone := false } }
      (clusterAt s 0).owner ≠ 0 ∧ (clusterAt s 0).carried.mirror = some 4096 ∧ (clusterAt s 0).carried.mirrorDone = false ∧
      (s.tck.phase = .commit ∨ s.tck.phase = .openP)) := by
  unfold Working; decide +kernel

theorem witness_calendar_slot :
    (let s := inPhase .work
     ticking s = true ∧ slotDue s 0 (calAt s (0 : CalId).val).begun = true ∧ calClass (0 : CalId).val ≠ 4 ∧
       slotZeroes s 0 (slotOwner s 0 0) = false ∧ slotUser s 0 0 = none ∧ calClass 0 ≠ 3) ∧
    (let s : State := { inPhase .openP with cals := [(0, { begun := 10000 })] }
     ticking s = true ∧ slotDue s 0 (calAt s 0).begun = false) ∧
    (let s : State := { withInst .work { inst .running with dFault := true } with cals := [(0, { table := [(0, 1)] })] }
     ticking s = true ∧ slotDue s 0 (calAt s 0).begun = true ∧ ownerIdles s (slotOwner s 0 0) = true) ∧
    (let s : State := { inPhase .work with fabric := { up.fabric with d2d := [(0, { retraining := true })] } }
     ticking s = true ∧ slotDue s 24 (calAt s 24).begun = true ∧ linkIdle s 24 = true ∧ calClass 24 ≠ 4) ∧
    calClass 32 = 3 ∧ (inPhase .openP).tck.phase ≠ .work ∧ slotDue (inPhase .openP) 32 0 = true := by
  decide +kernel

theorem witness_background_jobs :
    (let s := inPhase .coppice
     s.tck.phase = .coppice ∧ (stackAt s (0 : Die).val).migrating = none ∧ 6400 ≤ 6400 ∧ mayRetire s (stackAt s 0) = true) ∧
    (let s : State := { inPhase .coppice with hbm := [(0, { migrating := some 63, migPos := 21457 * 128 - 1 })] }
     (stackAt s 0).migrating = some 63 ∧ (stackAt s 0).switchDue = false ∧ mayRetire s (stackAt s 0) = true) ∧
    (let s : State := { inPhase .coppice with hbm := [(0, { marked := [0, 5] })] }
     (stackAt s 0).migrating = none ∧ (stackAt s 0).marked = 0 :: [5] ∧ (stackAt s 0).switchDue = false ∧ mayRetire s (stackAt s 0) = true) ∧
    (∀ ph ∈ [Phase.commit, Phase.openP],
      let s : State := { inPhase ph with hbm := [(0, { migrating := some 3, switchDue := true })] }
      (stackAt s 0).migrating = some 3 ∧ (stackAt s 0).switchDue = true ∧ (s.tck.phase = .commit ∨ s.tck.phase = .openP) ∧
        mayRetire s (stackAt s 0) = true ∧ Memory.wf s.mem = true ∧ Memory.wf (stackAt s 0).redirect = true) ∧
    (∀ b : Bool, let s : State := { inPhase .coppice with tel := { up.tel with pending := b } }
      s.tck.phase = .coppice ∧ (s.tel.pending || telNew s) = true) := by decide

/-! ### Witnesses: fabric, clusters and tables -/

theorem witness_fabric_faults :
    (let s := withCluster .work {}
     Working (instAt s (ownerOf s (0 : Cl).val)) ∧ wallOwner s 0 ≠ 0 ∧ Working (instAt s (1 : InstId).val)) ∧
    (let s : State := { withInst .openP { inst .topiary with reshape := some { x0 := 0, y0 := 0, w := 1, h := 1, slices := 0, borrow := false, gradeFast := 0, gradeSlow := 3, budget := 0, keepPlan := false } } with
        clusters := [(0, { dormant := true })] }
     ownerOf s 0 = 0 ∧ wallOwner s 0 = 1) ∧
    (40 ≤ (40 : ModId).val ∧ (3 : ModId).val % 4 = 3 ∧ (38 : ModId).val < 40 ∧ (38 : ModId).val % 4 < 3) ∧
    64 * (calAt (inPhase .work) (calFirst 3)).used < slotCapacity (inPhase .work) (calFirst 3) ∧
    (let s : State := { withInst .work (inst .running) with cals := [(calFirst 3, { used := 32 })] }
     slotCapacity s (calFirst 3) ≤ 64 * (calAt s (calFirst 3)).used ∧ Working (instAt s 1)) ∧
    (let s := inPhase .openP
     s.tck.phase = .openP ∧ (d2dAt s 55).errThr < (d2dAt s 55).errThr + 1 ∧ (d2dAt s 55).badLane.getLsbD (63 : Fin 64).val = false ∧
       (d2dAt s 55).spares < 4 ∧ (d2dAt s 0).retraining = false) ∧
    (let s : State := { inPhase .openP with fabric := { up.fabric with d2d := [(0, { spares := 4 })] } }
     (d2dAt s 0).badLane.getLsbD 0 = false ∧ ¬((d2dAt s 0).spares < 4)) ∧
    (d2dAt { up with fabric := { up.fabric with d2d := [(0, { retraining := true })] } } 0).retraining = true ∧
    (let s : State := { withInst .work (inst .running) with cals := [(calFirst 3, { table := [(0, 1)] })] }
     1 ∈ moduleOwners s (0 : ModId).val ∧ Working (instAt s 1) ∧ 2 ∉ moduleOwners s 0) ∧
    (∀ ph, ph = Phase.openP ∨ ph = .commit ∨ (ph ≠ .openP ∧ ph ≠ .commit) → mget (inPhase ph).fabric.stitch false 0 = false ∧
      mget (inPhase ph).fabric.stitchPend false 0 = false) ∧
    (let s : State := { withCluster .work {} with fabric := { up.fabric with stitchPend := [(0, true)] } }
     (mget s.fabric.stitch false 0 || mget s.fabric.stitchPend false 0) = true ∧ 1 ∈ instsOnDie s 0 ∧ (instAt s 1).st = .running) := by
  unfold Working
  refine ⟨by decide, by decide, by decide, by decide, by decide, by decide, by decide, by decide, by decide, fun _ _ => ⟨rfl, rfl⟩, by decide⟩

theorem witness_cluster_faults :
    (repEntry up 0 0 = 15 ∧ mget up.fabric.repPend 15 0 = 15 ∧ repEntry up 7 7 = 15) ∧
    (let s : State := { withCluster .work {} with fabric := { up.fabric with repMap := [(0, 1)] } }
     repEntry s 0 0 ≠ 15 ∧ repEntry s 0 0 ≠ 0 ∧ logicalAt s 0 0 0 = some 0 ∧ 1 ∈ instsInRow s 0 0 ∧ (instAt s 1).st = .running) ∧
    (let s : State := { inPhase .coppice with fabric := { up.fabric with repPend := [(63, 7)] } }
     mget s.fabric.repPend 15 ((7 : Die).val * 8 + (7 : Fin 8).val) ≤ 7 ∧ mget s.fabric.copyDone false 63 = false ∧ s.tck.phase ≠ .commit) ∧
    (let s : State := { inPhase .commit with fabric := { up.fabric with repPend := [(0, 0)] } }
     mget s.fabric.repPend 15 0 ≤ 7 ∧ mget s.fabric.copyDone false 0 = false ∧ s.tck.phase = .commit) ∧
    (let s := withCluster .work { me := { run := some { cmd := { w0 := 0, w1 := 0, w2 := 0, w3 := 0, sprig := 0, ctx := 0, at_ := 0 }, ret := [], done := 1 } } }
     unitRuns (clusterAt s (0 : Cl).val) .me = true ∧ repEntry s (dieOf 0) 0 = 15 ∧ mget s.fabric.repPend 15 0 = 15) := by decide

theorem witness_instance_and_port_tables :
    (let s := withInst .openP (inst .held)
     let word := fun k : Nat => if k = 0 then (0x80000000 : Word) &&& segMask 0 else mget (instAt s 1).segs 0 k
     let g := segOfWords (word 0).toNat (word 1).toNat (word 2).toNat
     Bar0 s (pgHbcI 1) ∧ 0 ∉ (instAt s 1).zeroing ∧ (instAt s 1).st ≠ .running ∧ g.valid = true ∧ segRefused s 1 g = false ∧
       segMalformed (instAt s 1) 0 g = false) ∧
    (let s := withInst .openP (inst .loaded)
     let word := fun k : Nat => if k = 0 then (0 : Word) &&& segMask 0 else mget (instAt s 1).segs 0 k
     (segOfWords (word 0).toNat (word 1).toNat (word 2).toNat).valid = false) ∧
    (let s := withInst .openP { inst .resetting with zeroing := [0], resetStep := 2, zeroPos := [(0, 2097152)] }
     0 ∈ (instAt s 1).zeroing ∧ (instAt s 1).resetStep ≠ 1 ∧ zeroingSeg (instAt s 1) (segView (instAt s 1) 0).target = some 0 ∧
       (segView (instAt s 1) 0).len * unit2M ≤ mget (instAt s 1).zeroPos 0 (segView (instAt s 1) 0).target) ∧
    Bar0 up (pgPort 3 3) ∧
    sharesWith (ktpAt up 3) 0 0x10000000 = 4194304 ∧ sharesWith (ktpAt up 3) 0 0x10010000 = 4195328 ∧ up.ent.degraded = false ∧
    ({ up with ent := { up.ent with keyDrbg := true } } : State).ent.keyDrbg = true ∧
    ({ up with ent := { up.ent with degraded := true } } : State).ent.degraded = true ∧ Bar0 up (pgKtpI 64) := by
  refine ⟨by unfold Bar0; decide, by decide, by decide +kernel, bar0_up _, by decide, by decide, rfl, rfl, rfl, bar0_up _⟩

/-! ### Witnesses: the host -/

/-- The value of a descriptor's fields: each with its first byte. -/
def desc (l : List (Nat × Nat)) : BitVec 512 := BitVec.ofNat 512 ((l.map fun p => p.2 * 2 ^ (8 * p.1)).sum)

theorem witness_completions_fence_and_nop :
    (∀ st ∈ [IState.running, .held], let s := withDesc (inst st) 1 (desc [(0, 0)])
      (ringAt s 4).slots = [slotOf (desc [(0, 0)])] ∧ (ringAt s 4).owner ≠ 0 ∧ (instAt s 1).st = st) ∧
    (ringAt (withDesc (inst .held) 0 (desc [(0, 0)])) 4).owner = 0 ∧
    (nextDesc (withDesc (inst .held) 1 (desc [(0, 0)])) (4 : RingId).val 0) = some (slotOf (desc [(0, 0)])) ∧
    (∀ t ∈ [0, 9], (ringAt (withDesc (inst .held) 1 (desc [(0, t)])) (4 : RingId).val).slots.find? (fun d => d.entry.isNone) =
      some (slotOf (desc [(0, t)])) ∧ dType (slotOf (desc [(0, t)])).desc = t) := by decide +kernel

theorem witness_doorbells_and_descriptors :
    (let s : State := { up with insts := [(1, inst .held)], rings := [(4, { enable := true, owner := 1 })] }
     Bar0 s (pgRng 4) ∧ (ringAt s (4 : RingId).val).owner = (1 : Fn).val ∧ (ringAt s 4).enable = true ∧ doorbellOk (ringAt s 4) 15 = true ∧
       (instAt s (ringAt s 4).owner).st ≠ .resetting ∧ doorbellOk (ringAt s 4) 16 = false ∧ (ringAt s 4).owner ≠ (2 : Fn).val ∧
       s.pwr.saving = false ∧ s.glb.ready = true) ∧
    (let s : State := { up with rings := [(5, { enable := true, kind := true, tail := 1 })] }
     (ringAt s (5 : RingId).val).owner = 0 ∧ doorbellOk (ringAt s 5) 1 = true ∧ doorbellOk (ringAt s 5) 2 = false) ∧
    (ringAt up (6 : RingId).val).enable = false ∧
    (let s : State := { up with rings := [(4, { enable := true, cq := 5, snap := 1 }), (5, { enable := true, kind := true })] }
     canFetch s (4 : RingId).val = true ∧ cqHasRoom s (ringAt s 4).cq = true ∧ (ringAt s 4).owner = 0) ∧
    (let s : State := { up with rings := [(4, { enable := true, cq := 5, snap := 1 }), (5, { enable := true, kind := true, tail := 15 })] }
     canFetch s (4 : RingId).val = true ∧ cqHasRoom s (ringAt s 4).cq = false) ∧
    (let s : State := { up with insts := [(1, inst .held)], rings := [(4, { enable := true, owner := 1, cq := 5, snap := 1 }), (5, { enable := true, kind := true, owner := 1 })] }
     canFetch s (4 : RingId).val = true ∧ cqHasRoom s (ringAt s 4).cq = true ∧ (ringAt s 4).owner ≠ 0) ∧
    descOk (desc [(0, 0x0A)]) = false ∧ descOk (desc [(0, 0x40), (2, 0x40)]) = true ∧ mgmtType (dType (desc [(0, 0x40), (2, 0x40)])) = true ∧
    descOk (desc [(0, 2), (2, 2)]) = true ∧ dType (desc [(0, 2), (2, 2)]) ∈ [1, 2, 3, 6, 7, 8] ∧ mgmtType 2 = false ∧
    descOk (desc [(0, 9), (2, 9)]) = true ∧ dType (desc [(0, 9), (2, 9)]) = 9 := by
  unfold Bar0; decide +kernel

/-- DMA of 64 B between host address 64 and address 0 of the instance. -/
def dma (t : Nat) : BitVec 512 := desc [(0, t), (8, 64), (24, 64)]

/-- With a DMA tag for instance 1 on P0. -/
def tagged (s : State) : State := { s with pci := [(0, { tags := [(1, some 1)] })] }

def xferOf (k : XferKind) (m : Nat) : Transfer :=
  { id := 0, ring := 4, seq := 0, kind := k, inst := 1, host := 64, va := 0, len := 64, base := 0, wrap := 0, pcie := m, spine := m,
    moved := m, status := 0, dead := false, data := List.replicate 64 7 }

/-- Instance 1 as given with one transfer. -/
def withXfer (i : Inst) (x : Transfer) : State := { withInst .work i with xfers := [x] }

theorem witness_host_transfers :
    (∀ t ∈ [4, 5], let s := tagged (withDesc (inst .held) 1 (dma t))
     nextDesc s (4 : RingId).val t = some (slotOf (dma t)) ∧
       dmaRefused s 1 (t == 4) (dField (dma t) 8 8) (dField (dma t) 16 8) (dField (dma t) 24 4) = false ∧ tagFree s 1 = true ∧
       (List.replicate 64 (0 : Byte)).length = dField (dma t) 24 4 ∧ dmaRefused s 1 (t == 4) 63 0 64 = true) ∧
    (∀ n ∈ [32, 65536], let d := desc [(0, 6), (24, n)]
     let s := tagged (withDesc (inst .held) 1 d)
     nextDesc s (4 : RingId).val 6 = some (slotOf d) ∧ dField d 24 4 % 32 = 0 ∧ dField d 24 4 ≠ 0 ∧ dField d 24 4 ≤ 65536 ∧
       s.ent.degraded = false ∧ tagFree s (ringAt s 4).owner = true) ∧
    (let d := desc [(0, 6), (24, 32)]
     let s : State := { withDesc (inst .held) 1 d with ent := { up.ent with degraded := true } }
     nextDesc s (4 : RingId).val 6 = some (slotOf d) ∧ s.ent.degraded = true) ∧
    (let d := desc [(0, 7), (24, 1)]
     let s := tagged (withDesc { inst .held with ann := { trHead := 1 } } 1 d)
     nextDesc s (4 : RingId).val 7 = some (slotOf d) ∧ min (dField d 24 4) (traceCount (instAt s 1).ann) ≠ 0 ∧ tagFree s 1 = true ∧
       nextDesc (withDesc (inst .held) 1 d) (4 : RingId).val 7 = some (slotOf d) ∧
       min (dField d 24 4) (traceCount (instAt (withDesc (inst .held) 1 d) 1).ann) = 0) ∧
    (∀ k ∈ [XferKind.dmaIn, .dmaOut],
     let s := withXfer (inst .running) (xferOf k 64)
     s.xfers.find? (fun y => y.id == 0) = some (xferOf k 64) ∧ (xferOf k 64).moved = (xferOf k 64).len ∧ ofDesc (xferOf k 64) = true ∧
       (instAt s 1).st = .running ∧ lateWindow s (xferOf k 64) = false) ∧
    lateWindow (withXfer { inst .running with wins := [{ v := 0, b0 := 8, b1 := 9, len := 1 }] } (xferOf .dmaIn 64)) (xferOf .dmaIn 64) = true ∧
    ofDesc (xferOf .image 64) = false ∧ ofDesc { xferOf .dmaIn 64 with dead := true } = false ∧
    (let s := withXfer (inst .running) (xferOf .dmaIn 0)
     s.xfers.find? (fun y => y.id == 0) = some (xferOf .dmaIn 0) ∧ (xferOf .dmaIn 0).moved ≠ (xferOf .dmaIn 0).len ∧
       (xferOf .dmaIn 0).kind = .dmaIn ∧ (xferOf .dmaIn 0).pcie < (xferOf .dmaIn 0).len) := by decide +kernel

/-- HEDGE_FORM or HEDGE_RESHAPE of instance 1 to a width by 1 cluster with slices 16 to 31. -/
def shape (t w : Nat) : BitVec 512 := desc [(0, t), (8, 1), (9, 0x18), (14, w), (15, 1), (16, 0xFFFF0000)]

theorem witness_run_stop_form_reshape_are_staged :
    (let s := withDesc (inst .loaded) 1 (desc [(0, 2)])
     nextDesc s (4 : RingId).val 2 = some (slotOf (desc [(0, 2)])) ∧ (afterOp (pendingState s 1) .run).isSome = true ∧
       hasUnavailable s (instAt s 1) = false) ∧
    (let s := withDesc (inst .formed) 1 (desc [(0, 2)])
     nextDesc s (4 : RingId).val 2 = some (slotOf (desc [(0, 2)])) ∧ (afterOp (pendingState s 1) .run).isNone = true) ∧
    (let s := withDesc (inst .running) 1 (desc [(0, 3)])
     nextDesc s (4 : RingId).val 3 = some (slotOf (desc [(0, 3)])) ∧ (afterOp (pendingState s 1) .stop).isSome = true) ∧
    (let s := withDesc { inst .empty with w := 0, h := 0 } 1 (desc [(0, 3)])
     nextDesc s (4 : RingId).val 3 = some (slotOf (desc [(0, 3)])) ∧ (afterOp (pendingState s 1) .stop).isNone = true) ∧
    (let s := tagged (withDesc { inst .empty with w := 0, h := 0 } 0 (shape 0x40 1))
     nextDesc s (4 : RingId).val 0x40 = some (slotOf (shape 0x40 1)) ∧ dField (shape 0x40 1) 8 1 = 1 ∧
       (afterOp (pendingState s 1) (.form (shapeOf (shape 0x40 1)))).isSome = true) ∧
    (let s := withDesc (inst .held) 0 (shape 0x41 1)
     nextDesc s (4 : RingId).val 0x41 = some (slotOf (shape 0x41 1)) ∧
       (afterOp (pendingState s 1) (.reshape (shapeOf (shape 0x41 1)))).isSome = true) := by decide +kernel

theorem witness_admission :
    (let s := tagged (withDesc { inst .empty with w := 0, h := 0, segs := [] } 0 (shape 0x40 1))
     admission s 1 (shapeOf (shape 0x40 1)) false = none ∧ admission s 1 (shapeOf (shape 0x40 33)) false = some (1, 0)) ∧
    (let s := withDesc { inst .held with slices := 0xFFFF0000 } 0 (shape 0x41 1)
     admission s 1 (shapeOf (shape 0x41 1)) true = none ∧ admission s 1 (shapeOf (shape 0x41 0)) true = some (1, 0)) := by
  decide +kernel

/-- A plan that declares nothing. -/
def emptyPlan : Plan :=
  { sprigs := [], units := [], windows := [], carried := [], sends := [], checkpoints := [], bestBase := 0, k := 0, smax := 0,
    peers := [], margin := 16, calendar := [], figures := [] }

def loadedPlan : Loaded := { plan := emptyPlan, periodUs := 1000, gradeFast := 0, gradeSlow := 3 }

theorem witness_running_sets_the_hedge_tick :
    ∀ st ∈ [IState.loaded, .held], ∀ b : Bool,
      let s := withInst .openP { inst st with plan := some loadedPlan, redo := b }
      let o : StagedOp := { inst := 1, mgmt := false, op := .run, ring := 4, seq := 0 }
      o.op = .run ∧ (instAt s o.inst).st = st ∧ hasUnavailable s (instAt s o.inst) = false ∧
        (instAt s o.inst).plan.map (·.periodUs) = some s.tck.period ∧ (instAt s o.inst).redo = b ∧
        (s.tck.devTick - (instAt s o.inst).htick).toNat < 2 ^ 32 := by decide +kernel

/-- The bytes that are not 0 of an image of 112 B for a hedge of 1 × 1: header, and empty sections 1, 7 and 8 (R365, R366).
CHECK stands in bytes 20 to 23. -/
def image : Bytes :=
  [(0, 0x52), (1, 0x5A), (2, 0x50), (3, 0x49), (4, 1), (6, 2), (8, 1), (9, 1), (10, 12), (12, 232), (13, 3), (16, 112), (20, 237),
   (21, 12), (22, 159), (23, 217), (24, 3), (64, 1), (68, 112), (80, 7), (84, 112), (96, 8), (100, 112)]

/-- PLAN_LOAD of 112 B at address 0. -/
def planDesc (len : Nat) : BitVec 512 := desc [(0, 1), (16, len)]

/-- The read of the first n bytes of that image, m of them moved. -/
def imageXfer (n m : Nat) : Transfer :=
  { xferOf .image m with len := n, data := (List.range n).map fun a => mget image 0 a }

/-- Instance 1 with the load of the plan that declares nothing begun. -/
def loadingInst (st : IState) : Inst := { inst st with loading := some (loadedPlan, 4, 0, false) }

theorem witness_plan_load :
    (let s := withDesc (inst .formed) 1 (planDesc 112)
     nextDesc s (4 : RingId).val 1 = some (slotOf (planDesc 112)) ∧ (afterOp (pendingState s 1) .loaded).isSome = true ∧
       imageReadable (instAt s 1) 0 112 = true ∧ (instAt s 1).loading = none) ∧
    (∀ st ∈ [IState.formed, .loaded],
     let s := withXfer (loadingInst st) (imageXfer 112 112)
     (instAt s (1 : InstId).val).loading = some (loadedPlan, 4, 0, false) ∧ imageOf s 1 = some (imageXfer 112 112) ∧
       (imageXfer 112 112).moved = (imageXfer 112 112).len ∧ (instAt s 1).st = st ∧ ¬(67108864 < (imageXfer 112 112).len) ∧
       planRefused s 1 loadedPlan.plan (imageXfer 112 112).data 112 = false) ∧
    (let s := withXfer (loadingInst .formed) (imageXfer 63 63)
     imageOf s 1 = some (imageXfer 63 63) ∧ planRefused s 1 loadedPlan.plan (imageXfer 63 63).data 63 = true) ∧
    (let s := withXfer (loadingInst .formed) (imageXfer 112 64)
     imageOf s 1 = some (imageXfer 112 64) ∧ (imageXfer 112 64).moved ≠ (imageXfer 112 64).len) := by decide +kernel

theorem witness_instance_resets :
    (let d := desc [(0, 0x42), (8, 64)]
     let s := withDesc (inst .held) 0 d
     nextDesc s (4 : RingId).val 0x42 = some (slotOf d) ∧ dField d 8 1 = 64 ∧ (instAt s 64).st ≠ .resetting) ∧
    ((1 : InstId).val ≠ 0 ∧ (instAt up 1).st ≠ .resetting) ∧
    (let s := withInst .openP { inst .resetting with resetStep := 3 }
     (instAt s 1).st = .resetting ∧ (instAt s 1).resetStep = 3) := by decide +kernel

theorem witness_host_links :
    ((1 : BitVec 4).toNat ≤ 5 ∧ (5 : BitVec 4).toNat ≤ 5) ∧
    (let s := withInst .work (inst .running)
     s.failedOver = false ∧ (pciAt s 0).up = false ∧ (instAt s 1).st = .running) ∧
    Bar0 up (pgPort 1 1) ∧ ({ withInst .work (inst .running) with failedOver := true } : State).failedOver = true ∧
    (64 : InstId).val ≠ 0 := by
  refine ⟨by decide, by decide, bar0_up _, rfl, by decide⟩


/-! ### Witnesses: ports -/

/-- Port 0 as given, its Kaluri flow 0 valid from instance 2 of the peer to instance 1, its word 0 as given. -/
def portSt (i : Inst) (w0 : Word) (e : Eth) : State :=
  { withInst .work i with eth := [(0, e)], ktp := [(0, { flows := [(0, w0), (1, 0x00010201)] })] }

def goodFrame (b : EthBody) : EthFrame :=
  { length := 64, fcsOk := true, fecCorrected := 0, fecLost := false, sub := 0, tags := [], ipOptions := false, fragment := false,
    ptpNs := 0, offsetNs := 0, body := b }

/-- A datagram to a UDP port with a checksum and a payload. -/
def udpTo (port check : BitVec 16) (l : List Byte) : Udp :=
  { ipv6 := false, src := 0, dst := 0, srcPort := 0xC000, dstPort := port, check := check, payload := l, opened := none, ptp := none }

/-- A packet of flow 0 with 8 payload bytes. -/
def pkt (typ : BitVec 4) : KtPacket :=
  { ver := 1, typ := typ, unlocked := false, prot := false, keyId := false, retx := false, srcInst := 2, dstInst := 1, channel := 0,
    srcIncarn := 0, dstIncarn := 0, psn := 0, offset := 0, tick := 0, payload := [1, 2, 3, 4, 5, 6, 7, 8], ipv6 := false, srcIp := 0,
    srcPort := 0xC000, authOk := true }

/-- The bytes of the COUNTED one (R309): VER and TYPE, flags, LEN, SRC_INST, DST_INST, channel, and zeros up to byte 31. -/
def pktBytes : List Byte := [0x11, 0, 0, 8, 2, 1, 0, 0] ++ List.replicate 24 0 ++ [1, 2, 3, 4, 5, 6, 7, 8]

/-- The channel-0 binding of the sensor witnesses, and a packet for it. -/
def bound : Bind := { (default : Bind) with udpPort := 5000, rate := 1, slotLen := 2, slotsLog2 := 1, ftimeout := 1 }

theorem witness_ethernet_receive :
    (ethAt (portSt (inst .held) 1 { up := 1 }) (0 : PortId).val).up.getLsbD 0 = true ∧
    (ethAt { up with eth := [(0, { up := 4, modeNow := 1 })] } 0).up.getLsbD 2 = true ∧
    isSplit { up with eth := [(0, { up := 4, modeNow := 1 })] } 0 = true ∧
    (64 ≤ (goodFrame .pfc).length ∧ (goodFrame .pfc).length ≤ 9216 ∧ 9216 < 9217 ∧ 63 < 64 ∧ [1, 2].length ≥ 2) ∧
    (goodFrame .pfc).fecLost = false ∧ (goodFrame .pfc).fcsOk = true ∧ (goodFrame .pfc).tags.length < 2 ∧
    (∀ n : PortId, (hdrAt up (pgEth n.val)).freeze = false) ∧
    (let u := udpTo 5000 1 []
     udpOk u = false) ∧
    (let s : State := { up with ptp := { up.ptp with port := 1, transport := 2 } }
     s.ptp.port.toNat = (1 : PortId).val ∧ s.ptp.transport.toNat = 2) ∧
    (let s : State := { portSt (inst .held) 1 {} with sns := [(0, { bound := true, bind := bound })] }
     let u := udpTo 5000 0 [1]
     udpOk u = true ∧ (List.range 16).any (fun k => snsMatch s (snsAt s k) (sensorOf 0 (goodFrame (.udp u)) u)) = true) ∧
    (let s := portSt (inst .held) 1 { up := 1 }
     let u := udpTo (ktpAt s 0).udpPort 0 pktBytes
     u.dstPort = (ktpAt s (0 : PortId).val).udpPort ∧ udpOk u = true ∧
       (List.range 16).any (fun k => snsMatch s (snsAt s k) (sensorOf 0 (goodFrame (.udp u)) u)) = false ∧ parseKt u = some (pkt 1) ∧
       flowOfPkt (ktpAt s 0) (pkt 1) = some 0 ∧ authBad (ktpAt s 0) 0 (pkt 1) = false ∧
       flowOccupancy s 0 0 + (pkt 1).payload.length ≤ (flowView (ktpAt s 0) 0).rxShare) ∧
    (let s := portSt (inst .held) 1 { ipv4 := 9, rxq := [.arp 0 9 1 2, .neighbour 0 0 3 4, .pfc] }
     (ethAt s (0 : PortId).val).rxq.find? isArp = some (.arp 0 (ethAt s 0).ipv4 1 2) ∧
       (ethAt s 0).rxq.find? isNd = some (.neighbour 0 (ethAt s 0).ipv6 3 4) ∧ (ethAt s 0).rxq.any isPfc = true) ∧
    (let s := portSt (inst .held) 1 { ipv4 := 9, rxq := [.arp 0 8 1 2, .neighbour 0 1 3 4] }
     (ethAt s 0).rxq.find? isArp = some (.arp 0 8 1 2) ∧ (8 : Word) ≠ (ethAt s 0).ipv4 ∧
       (ethAt s 0).rxq.find? isNd = some (.neighbour 0 1 3 4) ∧ (1 : BitVec 128) ≠ (ethAt s 0).ipv6) := by decide +kernel

def ptpMsg (k : PtpKind) (d : BitVec 7) (two : Bool) : PtpMsg :=
  { kind := k, domain := d, twoStep := two, t1 := 1, t2 := 5, t3 := 7, t4 := 9, gmId := 0, bmcaState := 9 }

theorem witness_ptp_clock :
    (∀ k ∈ [PtpKind.sync, .followUp, .delayResp, .mgmtSet], ∀ two : Bool,
      let m := ptpMsg k up.ptp.domain two
      let s := portSt (inst .held) 1 { rxq := [.ptp m] }
      (ethAt s s.ptp.port.toNat).rxq.find? isPtp = some (.ptp m) ∧ m.domain = s.ptp.domain ∧ m.kind = k ∧ m.twoStep = two) ∧
    (ptpMsg .sync (up.ptp.domain + 1) false).domain ≠ up.ptp.domain ∧
    (∀ st ∈ ([6, 8, 9] : List (BitVec 4)), ({ up with ptp := { up.ptp with state := st } } : State).ptp.state = st) ∧
    (∀ o : Bool, (mgmtFrame up 0 (.ptp .sync 0 0 o none)).body = .ptp .sync 0 0 o none) ∧ Bar0 up pgPtp :=
  ⟨by decide +kernel, by decide, fun _ _ => rfl, fun _ => rfl, bar0_up _⟩

/-- An instance with channel 0 open on flow 0 of port 0, its region the first 64 B. -/
def chanInst (st : IState) (w0 : Word) : Inst := { inst st with chans := [(0, w0), (4, 1)] }

/-- The state after the only frame that waits on port 0 has left. -/
def taken (s : State) : State := modEth s 0 fun e => { e with rxq := e.rxq.eraseP fun _ => true }

/-- The one packet that waits is what the command that receives it takes. -/
theorem takes_pkt (i : Inst) (w : Word) :
    let s := fun t => portSt i w { rxq := [.kt (pkt t)] }
    takeFrame (s 1) (0 : PortId).val (isKt fun p => p.typ == 1 || p.typ == 2) = some (.kt (pkt 1), taken (s 1)) ∧
    takeFrame (s 2) (0 : PortId).val (isKt fun p => p.typ == 1 || p.typ == 2) = some (.kt (pkt 2), taken (s 2)) ∧
    takeFrame (s 3) (0 : PortId).val (isKt fun p => p.typ == 3) = some (.kt (pkt 3), taken (s 3)) ∧
    takeFrame (s 4) (0 : PortId).val (isKt fun p => p.typ == 4) = some (.kt (pkt 4), taken (s 4)) ∧
    takeFrame (s 5) (0 : PortId).val (isKt fun p => p.typ == 5) = some (.kt (pkt 5), taken (s 5)) ∧
    takeFrame (s 6) (0 : PortId).val (isKt fun p => p.typ == 6) = some (.kt (pkt 6), taken (s 6)) :=
  ⟨rfl, rfl, rfl, rfl, rfl, rfl⟩

/-- Port 0 with a packet of each data kind at the front of its buffer; the channel as its word 0 says. -/
def dataSt (w0 : Word) (p : KtPacket) : State := taken (portSt (chanInst .held w0) 1 { rxq := [.kt p] })

/-- A delivery of that packet to address 0 of instance 1. -/
def deliveryOf : Delivery :=
  { id := 0, inst := 1, va := 0, data := (pkt 1).payload, written := 8, moved := 0, what := .kt 0 0 (pkt 1) }

theorem witness_kaluri_receive :
    (∀ p ∈ [pkt 1, { pkt 1 with payload := [] }], let t0 := dataSt 1 p
     checkPkt t0 0 p = .ok 0 1 ∧ takesPkt t0 0 0 1 p = true ∧ isDuplicate t0 1 0 0 = false ∧
       landing (chanView (instAt t0 1) 0) p = some 0 ∧ plainRange (instAt t0 1) 0 p.payload.length = true ∧
       p.payload.length ≤ unitLeft 0) ∧
    (let t0 := dataSt 5 (pkt 2)
     checkPkt t0 0 (pkt 2) = .ok 0 1 ∧ takesPkt t0 0 0 1 (pkt 2) = true ∧ isDuplicate t0 1 0 0 = false ∧
       landing (chanView (instAt t0 1) 0) (pkt 2) = some 0) ∧
    (let s : State := { portSt (chanInst .held 1) 1 {} with deliveries := [deliveryOf] }
     s.deliveries.find? (fun e => e.id == deliveryOf.id) = some deliveryOf ∧ calClass 8 = 2 ∧
       deliveryOf.data.length ≤ deliveryOf.moved + 8 ∧ deliveryOf.moved + 7 < deliveryOf.data.length ∧
       (let c := chanView (instAt s 1) 0
        c.opn = true ∧ c.send = false ∧ c.aborted = false)) ∧
    checkPkt (taken (portSt (inst .held) 5 { rxq := [.kt (pkt 1)] })) 0 (pkt 1) = .authFail 1 ∧
    (let x : ChanX := { psn := 7, ahead := [(9, 16)] }
     x.ahead.any (fun a => a.1 == (7 : Word) + 1) = false ∧ (8 : Word) ≠ x.psn) := by decide +kernel

/-- Port 0 up, its egress calendar in the slot of index 49, all of its first slots owned by instance 1. -/
def egressSt (i : Inst) : State :=
  { portSt i 1 { up := 1 } with cals := [(84, { table := (List.range 60).map fun n => (n, 1), begun := 50 })] }

theorem witness_kaluri_acks_and_retransmission :
    (let s := egressSt { chanInst .held 1 with chanX := [(0, { ackAt := some 0 })] }
     let c := chanView (instAt s (1 : InstId).val) (0 : Fin 64).val
     slotNow s c.port = some 49 ∧ ackMay s 1 0 49 = true) ∧
    (let s := portSt (chanInst .held 3) 1 { rxq := [.kt (pkt 4)] }
     let t0 := taken s
     let c := chanView (instAt t0 1) 0
     checkPkt t0 0 (pkt 4) = .ok 0 1 ∧ c.opn = true ∧ c.send = true ∧ c.flow = 0 ∧ c.port = 0 ∧
       s.xfers.any (isSendOf 1) = false) ∧
    (∀ n ∈ [7, 8],
      let q : SentPkt := { psn := 3, offset := 0, data := [], tries := n, sentAt := some (49 * 32 - 50000) }
      let s := egressSt { chanInst .held 3 with chanX := [(0, { unacked := [q] })] }
      let c := chanView (instAt s 1) 0
      (chanXAt (instAt s 1) 0).unacked.find? (fun q => q.psn == 3) = some q ∧ slotNow s c.port = some 49 ∧
        chanSilent s 1 0 = false ∧ retxDue q (slotStart (egressCal c.port) 49) = true ∧ ctrSpent s c.port c.flow = false ∧
        unplannedRoom s c.port 1 49 (retxFrame s 1 0 q) = true) := by decide +kernel

theorem witness_kaluri_aborts :
    (∀ t ∈ ([5, 6] : List (BitVec 4)),
      let s := portSt (chanInst .held 1) 1 { rxq := [.kt (pkt t)] }
      let t0 := taken s
      checkPkt t0 0 (pkt t) = .ok 0 1 ∧
        0 ∈ chansOfFlow (instAt t0 1) 0 0 ∧ (chanView (instAt t0 1) 0).send = false) ∧
    (let p := { pkt 5 with srcIncarn := 1 }
     let t0 := dataSt 1 p
     checkPkt t0 0 p = .drop 1 ∧ flowOfPkt (ktpAt t0 0) p = some 0) ∧
    (instAt (withInst .work (inst .resetting)) (1 : InstId).val).st = .resetting := by decide +kernel

theorem witness_ethernet_links :
    (let s := portSt (chanInst .running 1) 1 { up := 1 }
     1 ∈ instsOnPort s (0 : PortId).val (1 &&& (ethAt s 0).up) ∧ (instAt s 1).st = .running ∧
       2 ∉ instsOnPort s 0 (1 &&& (ethAt s 0).up)) ∧
    (8 ≤ (8 : Fin 12).val ∧ ¬(8 ≤ (7 : Fin 12).val) ∧ (inPhase .openP).tck.phase = .openP ∧ (inPhase .work).tck.phase ≠ .openP) ∧
    ((avsAt up 8).eqLo : Int) ≤ 0 ∧ (255 : Int) ≤ (avsAt up 8).eqHi ∧ ((avsAt up 11).eqHi : Int) < 256 := by decide +kernel

theorem takes_of_find (s : State) (n : Nat) (p : FrameBody → Bool) (b : FrameBody) (h : (ethAt s n).rxq.find? p = some b) :
    takeFrame s n p = some (b, modEth s n fun e => { e with rxq := e.rxq.eraseP p }) := by
  simp [takeFrame, h]

def snsPkt (n : Nat) : SensorPkt :=
  { port := 0, subport := 0, dstIp := 0, udpPort := 5000, src := 0, ipv6 := false, vlan := none,
    payload := List.replicate n 1, ptpNs := 0, offsetNs := 0 }

/-- SENSOR_BIND of channel 0: UDP port 5000, rate 1, two slots of two lines, a frame timeout of 1; ring, status and
consumption lines as given. -/
def bindDesc : BitVec 512 :=
  desc [(0, 8), (12, 5000 + 65536), (16, 1 + 65536), (20, 2), (40, 0), (48, 4096), (56, 0x200000)]

theorem witness_sensor_streams :
    (let s : State := { withDesc { inst .held with wins := [{ v := 1, b0 := 8, b1 := 9, len := 1 }] } 1 bindDesc with
        sns := [(0, { owner := 1 })], cals := [(92, { table := (List.range 64).map fun n => (n, 1) })] }
     nextDesc s (4 : RingId).val 8 = some (slotOf bindDesc) ∧ bindRefused s 1 0 (bindOf bindDesc) = false) ∧
    (let s := withDesc (inst .held) 1 bindDesc
     nextDesc s (4 : RingId).val 8 = some (slotOf bindDesc) ∧ bindRefused s 1 0 (bindOf bindDesc) = true) ∧
    (let s : State := { portSt (inst .held) 1 { rxq := [.sensor (snsPkt 64)] } with sns := [(0, { bound := true, bind := bound })] }
     let x := snsAt s (0 : Fin 16).val
     (ethAt s x.bind.port.toNat).rxq.find? (isFor s x 0) = some (.sensor (snsPkt 64)) ∧
       64 ≤ bucketNow x (snsPkt 64).ptpNs.toNat ∧ stagedBytes s 0 + 64 ≤ 262144 ∧ x.bind.framing = false ∧ x.openF = none ∧
       64 ≤ slotCap x.bind ∧ (x.nextIdx - x.cons).toNat ≠ slotCount x.bind ∧ (snsAt s 0).bound = true) ∧
    (let s : State := { portSt (inst .held) 1 { rxq := [.sensor (snsPkt 8)] } with
        sns := [(0, { bound := true, bind := bound, bucket := 7 })] }
     let x := snsAt s 0
     (ethAt s x.bind.port.toNat).rxq.find? (isFor s x 0) = some (.sensor (snsPkt 8)) ∧ bucketNow x (snsPkt 8).ptpNs.toNat < 8) ∧
    (let d : Delivery := { deliveryOf with data := List.replicate 1024 0, written := 0, what := .sensor 0 0 }
     let s : State := { up with deliveries := List.replicate 256 d }
     262144 < stagedBytes s 0 + 1) ∧
    (snsAt up 15).openF = none := by decide +kernel

/-! ### Witnesses: supervisors, loops, power and start-up -/

theorem witness_supervisors_and_injection :
    ((0 : PortId) ≠ 1 ∧ (supAt up (0 : PortId).val).failed = false ∧ (supAt up (1 : PortId).val).failed = false ∧
      (supAt up 1).term.toNat ≤ (0 : Word).toNat ∧ mget (supAt up 1).missed 0 0 < 2) ∧
    (let s : State := { up with sup := [(1, { missed := [(0, 2)] }), (2, { suspect := 1 })] }
     2 ≤ mget (supAt s 1).missed 0 0 ∧ (supAt s 1).suspect.getLsbD 0 = false ∧ (supAt s 2).failed = false ∧
       (supAt s 2).suspect.getLsbD 0 = true) ∧
    Bar0 up (pgSup 1) ∧
    (up.pwr.saving = false ∧ pageServes up ((0x1000 : BitVec 28).toNat / 4096) = true ∧ pageOf 1 ≠ .absent ∧ canInject (pageOf 1) = true ∧
      locked up 1 = false ∧ (hdrAt up 1).injGo = false ∧ (0x80005001 : Word).getLsbD 31 = true ∧
      (detectable (pageId (pageOf 1)).1).contains ((0x80005001 : Word).toNat % 65536) = true ∧
      (detectable (pageId (pageOf 1)).1).contains ((0x80005002 : Word).toNat % 65536) = false) ∧
    (hdrAt { up with pgs := [(1, { injGo := true })] } 1).injGo = true := by
  refine ⟨by decide, by decide, bar0_up _, by decide, rfl⟩

theorem witness_adaptive_loops :
    (∀ d : Fin 12, Bar0 up (pgAvs d.val)) ∧
    ((avsAt up 0).fusedMin ≤ 600 ∧ 1000 ≤ (avsAt up 0).fusedMax ∧ 599 < (avsAt up 0).fusedMin ∧ (avsAt up 0).fusedMax < 1001) ∧
    (∀ n ∈ [2, 3], let s : State := { inPhase .openP with avsDev := { up.avsDev with grade := 3, clean := 1024, effFast := n } }
     s.tck.phase = .openP ∧ gupLimit s.avsDev ≤ s.avsDev.clean ∧ s.thm.override = false ∧
       (s.avsDev.effFast < s.avsDev.grade ∨ (s.avsDev.grade ≤ s.avsDev.effFast ∧ s.avsDev.grade ≠ 0))) ∧
    (inPhase .work).tck.phase ≠ .openP ∧
    (let s : State := { up with thm := { up.thm with override := true, below := 1024 } }
     s.thm.override = true ∧ 1024 ≤ s.thm.below) ∧
    ({ up with thm := { up.thm with override := true, below := 1023 } } : State).thm.below < 1024 := by
  refine ⟨fun _ => bar0_up _, by decide, by decide, by decide, by decide, by decide⟩

/-- A device in a save. -/
def saving : State := { up with pwr := { up.pwr with saving := true, writing := some {} } }

theorem witness_save_sequence :
    (up.pwr.saving = false ∧ up.pwr.on = true ∧ up.glb.ready = true ∧ Working (instAt (withInst .work (inst .running)) 1)) ∧
    (saving.pwr.saving = true ∧ saving.pwr.on = true ∧ saving.pwr.computeOn = true ∧ saving.pwr.writing = some {}) ∧
    (∀ c ∈ ([1, 2, 3, 4, 5, 6, 7] : List (Fin 8)), causeActs up c.val = true) ∧ Bar0 up pgPwr ∧
    (lineOk up 9 = true ∧ up.pwr.leakAct = true ∧ ({ up with pwr := { up.pwr with leakAct := false } } : State).pwr.leakAct = false) ∧
    (up.pwr.shdnEn = true ∧ mget up.pwr.fld 0 14 ≠ 1) ∧
    (let s : State := { up with thm := { up.thm with coolT := 551 } }
     lineOk s 10 = true ∧ (10 * s.thm.coolTrip : Int) < s.thm.coolT) := by
  refine ⟨by unfold Working; decide, by decide, by decide, bar0_up _, by decide, by decide, by decide⟩

theorem witness_input_bank_and_field_connector :
    ((41999 : BitVec 16).toNat < 42000 ∧ up.pwr.sagWarn = false) ∧
    (let s : State := { up with pwr := { up.pwr with permitted := true, holdClass := 3 } }
     s.pwr.permitted = true ∧ s.pwr.holdClass = 3) ∧
    ((5 : BitVec 3) ≠ up.pwr.holdClass ∧ (5 : BitVec 3).toNat ≤ 5 ∧ up.pwr.saving = false ∧
      ({ up with pwr := { up.pwr with holdOk := false } } : State).pwr.holdOk = false) ∧
    (mget up.pwr.fld 0 (16 : Fin 17).val ≠ 3 ∧ drivenLine up 16 = true ∧ 2 ≤ (3 : BitVec 2).toNat) ∧
    driverOn { up with pwr := { up.pwr with driverOff := [(8, true)] } } (8 : Fin 17).val = false ∧
    (let s := withInst .openP { inst .loaded with incarn := 4, keep := some (4, [1, 2]), keepSrc := 64 }
     (1 : InstId).val ≠ 0 ∧ Bar0 s (pgPwrI 1) ∧ (instAt s 1).keep = some ((instAt s 1).incarn, [1, 2]) ∧ (instAt s 1).st ≠ .running ∧
       (instAt s 1).keepSrc ≠ 0 ∧ s.deliveries.any (fun d => d.inst == 1 && d.what == .keep) = false) ∧
    (let d : Delivery := { deliveryOf with what := .keep }
     let s : State := { withInst .openP (inst .loaded) with deliveries := [d] }
     s.deliveries.find? (fun e => e.id == d.id) = some d ∧ d.data.length ≤ d.moved + 8 ∧ calClass 8 = 2) := by
  unfold Bar0; decide +kernel

/-- What a start-up stage finds when all is well. -/
def stageIn : StageIn :=
  let f : FwImage := {
    magic := 0x57465A57, version := 1, svn := 0, length := 8388608, keyOk := 3, sigOk := true, digestOk := true,
    imageDigest := 0 }
  { fwA := f, fwB := { f with length := 8388609 }, cfgReadErr := 0, stacksTrained := 0xFF, edgesFailed := 0, diesFailed := 0,
    portsOk := 0xF, clustersFailed := [], pwrBase := 160, classAPass := 0xF, bootMs := 1, slotId := 0, slotOpen := 0, ptpNs := 0 }

theorem witness_resets_and_start :
    (¬(up.pwr.saving = true ∧ up.pwr.on = true) ∧ up.pwr.on = true) ∧
    ({ up with pwr := { up.pwr with on := false } } : State).pwr.on = false ∧
    (State.reset.pwr.on = true ∧ State.reset.pwr.permitted = false ∧ State.reset.pwr.saving = false) ∧ State.reset.glb.perst = false := by
  decide

theorem witness_startup_stages :
    (∀ n ∈ [0, 1, 2, 3, 4, 5, 6, 7, 8],
      let s : State := { State.reset with glb := { State.reset.glb with t0 := true, perst := true, stage := n } }
      s.glb.t0 = true ∧ s.pwr.on = true ∧ s.pwr.saving = false ∧ s.glb.ready = false ∧ s.glb.stage = n) ∧
    (fwChoice up.glb 0 stageIn).isSome = true ∧ (fwChoice { up.glb with fused0 := 1 } 0 stageIn).isSome = false := by decide

theorem witness_firmware_accepts_by_rule :
    (∀ d : Fin 2, fwAccepts up.glb d.val (fwIn stageIn up.glb.bootSlot) = true) ∧
    (∀ d : Fin 2, fwAccepts { up.glb with bootSlot := true } d.val (fwIn stageIn true) = false) := by decide

theorem witness_fuses_never_fall : step { up with glb := { up.glb with fused0 := 3 } } = .next { up with glb := { up.glb with fused0 := 3 } } :=
  rfl

/-- Where the record areas lie is a free value: if block 0 is one, programming it is refused. -/
theorem witness_firmware_flash_and_sideband :
    Bar0 up pgGlb ∧ Bar0 up pgCfg ∧ (up.glb.ready = true ∧ up.glb.fused0 ≤ up.glb.svn ∧ up.glb.fused1 ≤ up.glb.svn) ∧
    ({ up with glb := { up.glb with fused1 := 1 } } : State).glb.svn < 1 ∧ up.glb.stage ≠ 8 ∧ up.glb.flOp = none ∧
    flashRefused { up.glb with flAddr := 0x1000000 } = false ∧
    (Config.flashRegion 0 = 3 → flashRefused { up.glb with flAddr := 0 } = true) ∧
    (∀ op : BitVec 2, ({ up with glb := { up.glb with flOp := some op } } : State).glb.flOp = some op) ∧
    (inPhase .coppice).tck.phase = .coppice ∧ (firmwareServes up = true ∧ lineOk up 6 = true ∧ lineOk up 7 = true) ∧
    firmwareServes State.reset = false ∧ up.pwr.computeOn = true ∧ (0 : BitVec 7) ≠ 0x60 + up.pwr.slotId.setWidth 7 := by
  refine ⟨bar0_up _, bar0_up _, by decide, by decide, by decide, rfl, by decide, ?_, fun _ => rfl, rfl, by decide, rfl, rfl, by decide⟩
  intro h
  simp [flashRefused, flashKind, flashAddr, h]

theorem witness_page_headers_and_locks :
    (up.pwr.saving = false ∧ pageServes up ((0x1014 : BitVec 28).toNat / 4096) = true ∧ pageOf 1 ≠ .absent ∧ locked up 1 = false ∧
      tickCnt 1 = false ∧ up.pwr.on = true ∧ up.pwr.computeOn = true ∧ queueFull up 0 = false ∧
      (0x1014 : BitVec 28).toNat % 4096 = 0x14 ∧ (0x1010 : BitVec 28).toNat % 4096 = 0x10) ∧
    (saving.pwr.saving = true ∧ queueFull saving (64 : Fn).val = false ∧ sizeOk (0x1010 : BitVec 28).toNat 4 = true) ∧
    (let s : State := { up with pgs := [(1, { lock := true })] }
     s.pwr.saving = false ∧ s.glb.ready = true ∧ locked s pgTck = true ∧ locked s ((0x1010 : BitVec 28).toNat / 4096) = true ∧
       (0x1010 : BitVec 28).toNat % 4 = 0 ∧ (0x1010 : BitVec 28).toNat % 4096 ≠ 0x1C) := by decide

theorem witness_register_reads :
    (∀ s ∈ [up, inPhase .work], s.pwr.on = true ∧ s.pwr.computeOn = true ∧ queueFull s 0 = false ∧
      (0x604C : BitVec 28).toNat % 4 = 0 ∧ pageServes s ((0x604C : BitVec 28).toNat / 4096) = true ∧
      mget s.hiLatch none (fnKey 0 (0x604C : BitVec 28).toNat) = none) ∧
    up.tck.running = false ∧ (inPhase .work).tck.running = true ∧ up.glb.ready = true ∧
    (let s : State := { up with regQueue := [(64, 32)] }
     queueFull s (64 : Fn).val = true) := by decide

/-! ### Witnesses: sprigs and units -/

/-- Any word at the program counter of `atWord` issues, whatever its sources. -/
theorem issues_atWord (w : Word) (rs : List Nat) (div : Bool) : Issues (atWord w) (0 : Cl).val (0 : Sp).val w rs div := by
  have e0 : sprigAt (clusterAt (atWord w) 0) 0 = { prog := 1, imem := [(0, w)] } := rfl
  have e : fetchWord (sprigAt (clusterAt (atWord w) 0) 0) 0 = w := by simp [e0, fetchWord, mget, ctxAt]
  have e1 : clusterRuns (atWord w) (clusterAt (atWord w) 0) = true := rfl
  have e2 : (sprigAt (clusterAt (atWord w) 0) 0).active = 0 := rfl
  have e3 : ctxActive (sprigAt (clusterAt (atWord w) 0) 0) 0 = true := by simp [e0, ctxActive, ctxAt]
  have e4 : (ctxAt (sprigAt (clusterAt (atWord w) 0) 0) 0).pc = 0 := rfl
  have e5 : laying (clusterAt (atWord w) 0) = false := rfl
  exact ⟨by simp [issues, switchDue, e, e1, e2, e3, e4, e5], fun h => by simp [e5] at h⟩

/-- In the small states no flit and no access is under way. -/
theorem ready_atWord (w v : Word) (rs : List Nat) : storeReady (atWord w) (0 : Cl).val (0 : Sp).val v rs = atWord w :=
  storeReady_idle _ _ _ _ _ rfl

/-- Sprig 0 is the only one, and every bank is free. -/
theorem turn_atWord (w : Word) (u a : Nat) : StoreTurn (atWord w) (0 : Cl).val (0 : Sp).val u a := ⟨rfl, rfl, rfl⟩

/-- The sprig's predicate p0, and its inverse, at every word. -/
theorem pred_atWord (w : Word) (b : Bool) : predOn (activeCtx (atWord w) 0 0) 0 b = !b := by cases b <;> rfl

theorem witness_integer_instructions :
    (∀ w rs div, Issues (atWord w) (0 : Cl).val (0 : Sp).val w rs div) ∧ (∀ w, predOn (activeCtx (atWord w) 0 0) 0 false = true) ∧
    (∀ n ∈ [0, 1, 2, 3, 4, 5, 6], (fa false (BitVec.ofNat 7 n)).fn.toNat % 8 = n) :=
  ⟨issues_atWord, fun w => pred_atWord w false, by decide⟩

theorem witness_registers_and_predicates : (31 : Fin 32) ≠ 0 ∧ (7 : Fin 8) ≠ 0 ∧ (1 : Fin 32) ≠ 31 ∧ (1 : Fin 8) ≠ 7 := by decide

theorem witness_predicate_and_float_instructions :
    (∀ w rs div, Issues (atWord w) (0 : Cl).val (0 : Sp).val w rs div) ∧ (∀ w, predOn (activeCtx (atWord w) 0 0) 0 false = true) ∧
    (∀ n ∈ [0, 1, 2, 3, 4, 5, 6, 7], (fa false (BitVec.ofNat 7 n)).fn.toNat % 8 = n) ∧
    (∀ n ∈ [0, 1, 2, 3], ∃ r : Fin 32, r.val / 8 = n) ∧
    isNan (f32 0x7FC00001) = true ∧ f32 0x3F800000 = .fin false 0x800000 (-23) ∧ isZero (f32 0x80000000) = true :=
  ⟨issues_atWord, fun _ => rfl, by decide, by decide, by decide, by decide, by decide⟩

theorem witness_predicated_off_instructions :
    (∀ w rs div, Issues (atWord w) (0 : Cl).val (0 : Sp).val w rs div) ∧ (∀ w, predOn (activeCtx (atWord w) 0 0) 0 true = false) ∧
    (∀ w v rs, storeReady (atWord w) 0 0 v rs = atWord w) ∧ (∀ w u a, StoreTurn (atWord w) 0 0 u a) :=
  ⟨issues_atWord, fun w => pred_atWord w true, ready_atWord, turn_atWord⟩

/-- Sprig 0 about to issue a word that accesses bank 0 in cycle 0, which a mesh access takes. -/
def bankedWord (w : Word) : State := withCluster .work { sprigs := [(0, { prog := 1, imem := [(0, w)] })], banks := [(0, 2)] }

theorem witness_loads_and_stores :
    (∀ w rs div, Issues (atWord w) (0 : Cl).val (0 : Sp).val w rs div) ∧ (∀ w, predOn (activeCtx (atWord w) 0 0) 0 false = true) ∧
    (∀ w v rs, storeReady (atWord w) 0 0 v rs = atWord w) ∧ (∀ w u a, StoreTurn (atWord w) 0 0 u a) ∧
    (∀ w l, mget (clusterAt (atWord w) 0).poison false l = false) ∧
    (∀ op ∈ [0x2C, 0x2D], let f : FmtB := { fb false with imm := 0 }
     let w := wordB op f
     let s := bankedWord w
     Issues s (0 : Cl).val (0 : Sp).val w [1, 2] false ∧ issueCycle s 0 0 [1, 2] false = 0 ∧ isTurn (clusterAt s 0) 0 0 = true ∧
       mget (clusterAt s 0).banks 0 (0 * 16 + bankOf 0) ≠ 0) ∧
    (let e : Landing := { lo := 5, hi := 6, addr := 0, bytes := [1] }
     (5 ≤ 5 ∧ ¬(6 < e.lo) ∧ e.hi ≤ 6 ∧ 4 < e.lo ∧ e.lo ≤ e.hi)) := by
  refine ⟨issues_atWord, fun w => pred_atWord w false, ready_atWord, turn_atWord, fun _ _ => rfl, ?_, by decide⟩
  unfold Issues; decide

/-- Sprig 0 about to issue a word, its queue E with an entry, sprig 1 with a queue W of one entry's depth. -/
def withQueues (w : Word) : State :=
  withCluster .work { sprigs := [
    (0, { prog := 1, imem := [(0, w)], c0 := { qE := { depth := 2, q := [(9, 0)], fly := [(8, 5)], owed := [1] } } }),
    (1, { c0 := { qW := { depth := 1 } } })] }

/-- Sprig 5 about to issue a word; sprig 0, which comes first, may issue in the same cycle. -/
def behind (w : Word) : State :=
  withCluster .work { sprigs := [(0, { prog := 1 }), (5, { prog := 1, imem := [(0, w)] })] }

theorem witness_queue_instructions :
    (let w := wordA 0x30 (fa false 1)
     neighbour (0 : Sp).val ((fa false 1).fn.toNat % 4) = some 1 ∧ Issues (withQueues w) 0 0 w [2] false ∧
       isTurn (clusterAt (withQueues w) 0) 0 (issueCycle (withQueues w) 0 0 [2] false) = true ∧
       (queueAt (ctxAt (sprigOf (withQueues w) 0 1) 0) 3).depth = 1) ∧
    (neighbour (0 : Sp).val ((fa false 2).fn.toNat % 4) = some 4 ∧ Issues (withQueues (wordA 0x30 (fa false 2))) 0 0 (wordA 0x30 (fa false 2)) [2] false ∧
       (queueAt (ctxAt (sprigOf (withQueues 0) 0 4) 0) 0).depth = 0) ∧
    (∀ op ∈ [0x31, 0x32], Issues (withQueues (wordA op (fa false 1))) 0 0 (wordA op (fa false 1)) [] false ∧
      (queueAt (activeCtx (withQueues (wordA op (fa false 1))) 0 0) 1).q = (9, 0) :: [] ∧
      Issues (withQueues (wordA op (fa false 4))) 0 0 (wordA op (fa false 4)) [] false ∧
      (queueAt (activeCtx (withQueues (wordA op (fa false 4))) 0 0) 4).q = []) ∧
    (∀ op ∈ [0x30, 0x31, 0x32], let w := wordA op (fa false 1)
      Issues (behind w) 0 5 w [2] false ∧ Issues (behind w) 0 5 w [] false ∧ isTurn (clusterAt (behind w) 0) 5 0 = false) ∧
    (queueAt (ctxAt (sprigOf (withQueues 0) (0 : Cl).val (0 : Sp).val) 0) (1 : Fin 5).val).fly = (8, 5) :: [] ∧
    (let s := withQueues 0
     neighbour 0 1 = some 1 ∧ (queueAt (ctxAt (sprigOf s 0 0) 0) 1).owed = 1 :: [] ∧ (sprigOf s 0 1).cycle < 1) := by
  unfold Issues; decide

/-- A command of words w0 and w1 from sprig 0, context 0, issued in cycle 5. -/
def ucmd (w0 w1 : Word) : UCmd := { w0 := w0, w1 := w1, w2 := 0, w3 := 0, sprig := 0, ctx := 0, at_ := 5 }

theorem witness_unit_commands_and_random_bits :
    (∀ w rs div, Issues (atWord w) (0 : Cl).val (0 : Sp).val w rs div) ∧ (∀ w u, isTurn (clusterAt (atWord w) 0) 0 u = true) ∧
    (∀ w, (clusterAt (atWord w) 0).me.queue.length < 8 ∧ (clusterAt (atWord w) 0).su.queue.length < 8 ∧
      (clusterAt (atWord w) 0).drw.queue.length < 8 ∧ (clusterAt (atWord w) 0).me.taken = [] ∧ (clusterAt (atWord w) 0).su.taken = [] ∧
      (clusterAt (atWord w) 0).drw.taken = []) ∧
    (let w := wordA 0x34 { fa false 0 with rs1 := 4 }
     let s := withCluster .work { me := { queue := List.replicate 8 (ucmd 0 0) }, sprigs := [(0, { prog := 1, imem := [(0, w)] })] }
     Issues s 0 0 w [4, 5, 6, 7] false ∧ 8 ≤ (clusterAt s 0).me.queue.length) ∧
    (let w := wordA 0x34 { fa false 0 with rs1 := 4 }
     let s := withCluster .work { me := { taken := [0] }, sprigs := [(0, { prog := 1, imem := [(0, w)] })] }
     Issues s 0 0 w [4, 5, 6, 7] false ∧ issueCycle s 0 0 [4, 5, 6, 7] false ∈ (clusterAt s 0).me.taken) := by
  refine ⟨issues_atWord, fun _ _ => rfl, fun w => ⟨Nat.zero_lt_succ 7, Nat.zero_lt_succ 7, Nat.zero_lt_succ 7, rfl, rfl, rfl⟩, ?_, ?_⟩
  · unfold Issues; decide
  · unfold Issues; decide

theorem witness_control_instructions :
    (∀ w rs div, Issues (atWord w) (0 : Cl).val (0 : Sp).val w rs div) ∧
    (let x : Ctx := { pc := 4, loop0 := some { first := 1, last := 4, left := 0 } }
     x.loop1 = none ∧ x.loop0 = some { first := 1, last := 4, left := 0 } ∧ x.pc = 4) ∧
    (let x : Ctx := { pc := 3, loop0 := some { first := 1, last := 4, left := 2 } }
     (∀ l ∈ x.loop0, x.pc ≠ l.last) ∧ (∀ l ∈ x.loop1, x.pc ≠ l.last)) ∧
    (let s := withCluster .work { sprigs := [(0, { prog := 1, c0 := { idleLeft := 3 } })] }
     clusterRuns s (clusterAt s (0 : Cl).val) = true ∧ (sprigOf s 0 0).active = 0 ∧ laying (clusterAt s 0) = false ∧
       0 < (ctxAt (sprigOf s 0 0) 0).idleLeft) ∧
    (let s := withCluster .work { layDepth := 2, layPeriod := 4, sprigs := [(0, { prog := 3, cycle := 4 })] }
     clusterRuns s (clusterAt s 0) = true ∧ (sprigOf s 0 0).prog ≠ 0 ∧ switchDue (clusterAt s 0) (sprigOf s 0 0) = true ∧
       (sprigOf s 0 0).cycle < workCycles s) ∧
    (let s := withCluster .work { layDepth := 2, layPeriod := 4, sprigs := [(0, { prog := 3, cycle := 1, c0 := { ended := true } })] }
     clusterRuns s (clusterAt s 0) = true ∧ laying (clusterAt s 0) = true ∧ (sprigOf s 0 0).prog ≠ 0 ∧
       switchDue (clusterAt s 0) (sprigOf s 0 0) = false ∧ (ctxAt (sprigOf s 0 0) (sprigOf s 0 0).active).ended = true ∧
       (1 / 4 + 1) * 4 < workCycles s) ∧
    (let s := withCluster .work {}
     Working (instAt s (1 : InstId).val) ∧ s.tck.phase = .work ∧ clustersOf (instAt s 1) = [0] ∧ clusterDrained (clusterAt s 0) = true) ∧
    (0 ∈ clustersOf (instAt (atWord 0) 1) ∧ clusterDrained (clusterAt (atWord 0) 0) = false) := by
  refine ⟨issues_atWord, by decide, by decide, by decide, by decide, by decide, ?_, by decide⟩
  unfold Working; decide

def opOfKind (kd : OpKind) (served notify : Bool) (w3 : Word) (left : Nat) : Op :=
  { tag := 63, kind := kd, w0 := 0, w1 := 0, w2 := 0x20000, w3 := w3, notify := notify, sprig := 0, ctx := 0, at_ := 2, status := 0,
    served := served, left := left, done := 4, data := [], bits := [], bad := [] }

/-- Cluster 0 with that one operation in flight, its sprig 0 with a queue U. -/
def withOp (o : Op) (depth : Nat) : State :=
  withCluster .work { ops := [o], sprigs := [(0, { c0 := { qU := { depth := depth } } })] }

/-- What an operation waits for has happened when it has nothing left to move, or nothing can move. -/
theorem until_withOp (o : Op) (n : Nat) (q : State → Bool) (f : Nat) : netUntil (ownerOf (withOp o n) 0) q f (withOp o n) = withOp o n :=
  netUntil_idle _ _ _ _ rfl

theorem witness_transfers_of_a_cluster :
    (∀ w rs div, Issues (atWord w) (0 : Cl).val (0 : Sp).val w rs div) ∧ (∀ w v rs, storeReady (atWord w) 0 0 v rs = atWord w) ∧
    (∀ w u, isTurn (clusterAt (atWord w) 0) 0 u = true) ∧ freeTag (clusterAt (atWord 0) 0) 0 = some 0 ∧
    (xKind (atWord 0) (instAt (atWord 0) 1) 0 (xblock 0 0x200000 0 0) = (1, .refused) ∧
      xKind (atWord 0) (instAt (atWord 0) 1) 0 (xblock 0 0 0x30000 0) = (3, .refused)) ∧
    (let s : State := { atWord 0 with insts := [(1, { inst .running with slices := 1 })] }
     (xKind s (instAt s 1) 0 (xblock 0 0 0 0)).2 = .slice) ∧
    (let w := wordA 0x2E (fa false 0)
     let s := withCluster .work { tagSets := [(0, some [])], sprigs := [(0, { prog := 1, imem := [(0, w)] })] }
     Issues s 0 0 w [2, 3, 4, 5] false ∧ freeTag (clusterAt s 0) 0 = none ∧ storeReady s 0 0 w [2, 3, 4, 5] = s) ∧
    (let a : Access := { lid := 1, c := 0, tag := 0, beat := 0, dpa := 0, key := none, read := true, at_ := 4 }
     portPick [a, { a with lid := 0 }] 1 2 4 true = some a ∧ portPick [a] 0 2 3 true = none) ∧
    (∀ n ∈ [0, 0x4000], ∀ l ∈ [0, 1],
      let o := opOfKind (.cluster 1) false false (BitVec.ofNat 32 n) l
      let s := withOp o 1
      opAt (clusterAt s 0) (63 : Fin 64).val = some o ∧ clusterRuns s (clusterAt s 0) = true ∧ o.served = false ∧ o.left = l ∧
        (xblock o.w0 o.w1 o.w2 o.w3).read = (n == 0x4000)) ∧
    (∀ o n q f, netUntil (ownerOf (withOp o n) 0) q f (withOp o n) = withOp o n) ∧
    (∀ kd ∈ [OpKind.slice, .hbm, .cluster 1, .refused], ∀ b : Bool, ∀ n ∈ [0, 1],
      let o := opOfKind kd true b 0 0
      let s := withOp o n
      clusterRuns s (clusterAt s 0) = true ∧ opAt (clusterAt s 0) 63 = some o ∧ o.left = 0 ∧ o.bad = [] ∧ o.status = 0 ∧
        o.notify = b ∧ uRoom (clusterAt s 0) o.sprig.val o.ctx 1 = (n == 1)) := by
  refine ⟨issues_atWord, ready_atWord, fun _ _ => rfl, by decide +kernel, by decide +kernel, by decide +kernel,
    ⟨?_, by decide +kernel, storeReady_idle _ _ _ _ _ rfl⟩, by decide, by decide +kernel, until_withOp, by decide +kernel⟩
  unfold Issues; decide +kernel

/-- An engine with one command and nothing in progress. -/
def withMe (u : UCmd) : State := withCluster .work { me := { queue := [u] } }

theorem witness_matrix_engine_commands :
    (∀ u, clusterRuns (withMe u) (clusterAt (withMe u) (0 : Cl).val) = true ∧ (clusterAt (withMe u) 0).me.run = none ∧
      (clusterAt (withMe u) 0).me.queue = u :: [] ∧ (clusterAt (withMe u) 0).me.lastDone ≤ u.at_ ∧
      (∀ l, mget (clusterAt (withMe u) 0).poison false l = false)) ∧
    (∀ op ∈ [0, 1, 2, 3, 4, 5], (meCmd (ucmd (BitVec.ofNat 32 op) 0)).op = op) ∧
    (∀ op ∈ [2, 3], meBad (meCmd (ucmd (BitVec.ofNat 32 op) 0)) = false) ∧ meBad (meCmd (ucmd 0x200001 0)) = true ∧
    (let s := withCluster .work { me := { queue := [ucmd 1 0], lastDone := 6 } }
     (ucmd 1 0).at_ < (clusterAt s 0).me.lastDone) ∧
    (∀ n ∈ [0, 1], let s := withCluster .work { me := { run := some { cmd := ucmd 1 0, ret := [0], done := 9 } }, sprigs := [(0, { c0 := { qU := { depth := n } } })] }
      clusterRuns s (clusterAt s 0) = true ∧ (clusterAt s 0).me.run = some { cmd := ucmd 1 0, ret := [0], done := 9 } ∧
        uRoom (clusterAt s 0) 0 0 1 = (n == 1)) := by
  refine ⟨fun u => ⟨rfl, rfl, rfl, Nat.zero_le _, fun _ => rfl⟩, by decide, by decide, by decide, by decide, by decide⟩

/-- MATMUL in mode 8 with OUTFMT INT32 (R139, R149), of 1 × 1 by 1 × 8. -/
def int8Cmd : UCmd := ucmd (1 + 8 * 16 + 6 * 256) (64 * 65536)

theorem witness_int8_products_are_exact :
    (let s := withMe int8Cmd
     let m := meCmd int8Cmd
     meHead s (clusterAt s (0 : Cl).val) 1 = some int8Cmd ∧ meBad m = false ∧ m.mode = 8 ∧ m.outfmt = 6 ∧ m.postop = 0 ∧ m.acc = false ∧
       (clusterAt s 0).landing = [] ∧ (clusterAt s 0).poison = [] ∧ 0 < m.m ∧ 7 < m.n) := by decide +kernel

/-- An array with one command and nothing in progress. -/
def withSu (u : UCmd) : State := withCluster .work { su := { queue := [u], sheets := 1 } }

/-- A run of a command, begun in cycle 5. -/
def suRunOf (w0 : Word) : SuRun :=
  { cmd := ucmd w0 0, status := 0, value := 0, tag := 63, start := 5, done := 9, pos := 0, beta := [], acc := [], latched := [] }

/-- Cluster 0 with its array as given, the operation o in flight, and a queue U of the sprig 0. -/
def withRun (u : Su) (o : Op) (depth : Nat) : State :=
  withCluster .work { su := u, ops := [o], sprigs := [(0, { c0 := { qU := { depth := depth } } })] }

/-- With no command that takes steps, and nothing in the mesh, the engines and the mesh stand still. -/
theorem idle_withSu (u : UCmd) (t n : Nat) : suAdvance 0 t n (withSu u) = withSu u := suAdvance_idle _ _ _ _ rfl rfl
theorem until_withRun (u : Su) (o : Op) (d n : Nat) (q : State → Bool) : netUntil (ownerOf (withRun u o d) 0) q n (withRun u o d) = withRun u o d :=
  netUntil_idle _ _ _ _ rfl

/-- The sheet at address 0 lies in the first frame of the instance's segment: all of its lines can be read. -/
theorem read_inst (j : Nat) (h : j < 10240) : planReadPhys (inst .running) (64 * j) = some (64 * j) := by
  have hf : findSeg (inst .running) (64 * j) = some (segView (inst .running) 0) := by
    have hr : List.range 64 = 0 :: (List.range 63).map (· + 1) := by decide
    have h0 : (segView (inst .running) 0).valid = true ∧ (segView (inst .running) 0).vbase = 0 ∧ (segView (inst .running) 0).len = 1 := by
      decide
    unfold findSeg
    rw [hr, List.map_cons]
    refine List.find?_cons_of_pos ?_
    simp only [h0.1, h0.2.1, h0.2.2, unit2M, Bool.true_and, decide_eq_true_eq]
    omega
  have hw : findWin (inst .running) (64 * j) = none := rfl
  have hb : inBuffer (inst .running) (64 * j) = false := rfl
  have ht : (segView (inst .running) 0).target = 0 ∧ (segView (inst .running) 0).pbase = 0 ∧ (segView (inst .running) 0).vbase = 0 := by
    decide
  simp only [planReadPhys, hw, hb, physOf, hf, Option.bind_some, segPhys, ht.1, ht.2.1, ht.2.2, frameBase, unit2M]
  simp
  omega

theorem sheet_withSu (u : UCmd) : (sheetLines (withSu u) (instAt (withSu u) 1) (dieOf 0) 0).length = 10240 := by
  have hi : instAt (withSu u) 1 = inst .running := rfl
  have hm (a : Nat) : inMirror (withSu u) (inst .running) a = false := rfl
  have hl : ((List.range 10240).filterMap fun j => (planReadPhys (inst .running) (0 + 64 * j)).bind fun a =>
      if dpaDie a = dieOf 0 ∧ !(inMirror (withSu u) (inst .running) a) then some (j, a) else none) =
      (List.range 10240).map fun j => (j, 64 * j) := by
    rw [← List.filterMap_eq_map]
    refine List.filterMap_congr fun j hj => ?_
    have hj : j < 10240 := List.mem_range.mp hj
    have hd : dpaDie (64 * j) = dieOf 0 := by
      have h1 : isHbm (64 * j) = true := by simp only [isHbm, decide_eq_true_eq]; omega
      have h2 : stackOf (64 * j) = 0 := by simp only [stackOf]; omega
      rw [dpaDie, h1, h2]
      rfl
    simp [read_inst j hj, hd, hm]
  have hh (j : Nat) (hj : j < 10240) : isHbm (64 * j) = true := by simp [isHbm]; omega
  simp only [sheetLines, hi, hl]
  rw [List.filter_eq_self.mpr]
  · simp
  · intro p hp
    obtain ⟨j, hj, rfl⟩ := List.mem_map.mp hp
    have h0 : ((List.range 10240).map fun j => (j, 64 * j)).head? = some (0, 0) := by
      rw [List.range_succ_eq_map]
      rfl
    simp only [hh j (List.mem_range.mp hj), h0, Option.any_some]
    decide

theorem witness_stochastic_unit_commands :
    (∀ op ∈ [0, 1, 2, 3, 4, 5, 6, 7, 8, 15], let u := ucmd (BitVec.ofNat 32 (op + if op = 6 then 0x20 else 0)) 0
      let s := withSu u
      suHead s (clusterAt s (0 : Cl).val) op = some u ∧ inCkptWindow (instAt s 1) 5 100 = false ∧ (clusterAt s 0).poison = [] ∧
        suFieldsBad (clusterAt s 0).su (suCmd u) = decide (8 ≤ op)) ∧
    (∀ u t n, suAdvance 0 t n (withSu u) = withSu u) ∧
    (∀ f ∈ [3, 4], let u := ucmd (BitVec.ofNat 32 (4 + f * 32)) 0
      let s := withSu u
      suHead s (clusterAt s 0) 4 = some u ∧ (suCmd u).f3 = f ∧ suFieldsBad (clusterAt s 0).su (suCmd u) = false ∧
        (clusterAt s 0).landing = []) ∧
    freeTag (clusterAt (withSu (ucmd 3 0)) 0) 65 = some 0 ∧ (suCmd (ucmd 3 0)).lid < 1 ∧ 1 ≤ (suCmd (ucmd 3 0x4000)).lid ∧
    Working (instAt (withSu (ucmd 3 0x4000)) 1) ∧
    freeTag { tagSets := [(65, some []), (64, some [])] } 65 = none ∧ freeTag { tagSets := [(65, some []), (64, some [])] } 64 = none ∧
    (let s := withSu (ucmd 7 0)
     freeTag (clusterAt s 0) 64 = some 0 ∧ (mget (clusterAt s 0).su.sheetVa 0 0).toNat = 0) ∧
    (∀ u, (sheetLines (withSu u) (instAt (withSu u) 1) (dieOf 0) 0).length = 10240) ∧
    (let u : Su := { sweepRun := some (suRunOf 1) }
     u.sweepRun = some (suRunOf 1) ∧ (mget u.noise {} 0).reps < 5) ∧
    (let u : Su := { bndRun := some (suRunOf 2), spcnt := 1 }
     u.bndRun = some (suRunOf 2) ∧ (suRunOf 2).pos = 0 ∧ 0 < u.spcnt) ∧
    (∀ l ∈ [0, 1], let o := opOfKind (.exportTo 1) false false 0 l
     let s := withOp o 1
     opAt (clusterAt s 0) (63 : Fin 64).val = some o ∧ clusterRuns s (clusterAt s 0) = true ∧ o.left = l) ∧
    (∀ o n q f, netUntil (ownerOf (withOp o n) 0) q f (withOp o n) = withOp o n) ∧
    (∀ o n t f, suAdvance 0 t f (withOp o n) = withOp o n) ∧
    (∀ b : Bool, ∀ n ∈ [0, 1], let r := suRunOf 0
      let s := withRun { sweepRun := some r, bndRun := some r } (opOfKind .slice false false 0 0) n
      clusterRuns s (clusterAt s 0) = true ∧ (if b then (clusterAt s 0).su.bndRun else (clusterAt s 0).su.sweepRun) = some r ∧
        ¬((suCmd r.cmd).op = 7 ∧ r.status = 0) ∧ uRoom (clusterAt s 0) 0 0 1 = (n == 1)) ∧
    (let r := suRunOf 7
     let o := opOfKind (.sheet true) false false 0 0
     let s := withRun { sweepRun := some r } o 1
     clusterRuns s (clusterAt s 0) = true ∧ (clusterAt s 0).su.sweepRun = some r ∧ (suCmd r.cmd).op = 7 ∧ r.status = 0 ∧
       opAt (clusterAt s 0) r.tag = some o ∧ o.left = 0 ∧ o.bad = [] ∧ uRoom (clusterAt s 0) 0 0 1 = true) ∧
    (∀ t n o d, suAdvance 0 t n (withRun { sweepRun := some (suRunOf 7) } o d) = withRun { sweepRun := some (suRunOf 7) } o d) := by
  refine ⟨by decide +kernel, idle_withSu, by decide +kernel, by decide +kernel, by decide, by decide, by unfold Working; decide,
    by decide, by decide, by decide +kernel, sheet_withSu, by decide, by decide, by decide, until_withOp, fun _ _ _ _ => suAdvance_idle _ _ _ _ rfl rfl,
    by decide +kernel, by decide +kernel, fun _ _ _ _ => suAdvance_idle _ _ _ _ rfl rfl⟩

/-- A draw unit with one command; its parameter block at 64 holds τ and p = 1.0 (R249). -/
def withDraw (u : UCmd) (tau : Bytes) : State :=
  withCluster .work { drw := { queue := [u] }, store := tau ++ [(70, 0x80), (71, 0x3F)] }

/-- With nothing on its way the unit sees the store as it stands. -/
theorem sees_withDraw (u v : UCmd) (tau : Bytes) : (drawSees (withDraw u tau) 0 v).2 = tau ++ [(70, 0x80), (71, 0x3F)] := by
  simp only [drawSees]
  rw [netTo_idle _ _ _ _ rfl]
  rfl

theorem witness_draws :
    (let u := ucmd 1 0x10000
     let s := withDraw u []
     let st : Bytes := [] ++ [(70, 0x80), (71, 0x3F)]
     drawHead s (clusterAt s (0 : Cl).val) true = some u ∧ (clusterAt s 0).poison = [] ∧ drawBad st (drawCmd u) = false ∧
       isZero (drawTau st (drawCmd u)) = true) ∧
    (let u := ucmd 1 0x10000
     let s := withDraw u [(66, 0x80), (67, 0x3F)]
     let st : Bytes := [(66, 0x80), (67, 0x3F)] ++ [(70, 0x80), (71, 0x3F)]
     drawHead s (clusterAt s 0) true = some u ∧ drawBad st (drawCmd u) = false ∧ isZero (drawTau st (drawCmd u)) = false ∧
       (drawCmd u).aclass = false) ∧
    (∀ u v tau, (drawSees (withDraw u tau) 0 v).2 = tau ++ [(70, 0x80), (71, 0x3F)]) ∧
    (∀ op ∈ [0, 2], let u := ucmd (BitVec.ofNat 32 op) 0x10000
      drawHead (withDraw u []) (clusterAt (withDraw u []) 0) false = some u ∧ (drawCmd u).op = op) ∧
    (let u := ucmd 1 0x20000
     drawHead (withDraw u []) (clusterAt (withDraw u []) 0) true = some u ∧ drawBad ([] ++ [(70, 0x80), (71, 0x3F)]) (drawCmd u) = true) ∧
    (∀ n ∈ [1, 2], let r : URun := { cmd := ucmd 1 0, ret := [0, 0], done := 9 }
      let s := withCluster .work { drw := { run := some r }, sprigs := [(0, { c0 := { qU := { depth := n } } })] }
      clusterRuns s (clusterAt s 0) = true ∧ (clusterAt s 0).drw.run = some r ∧
        (let q := queueAt (ctxAt (sprigOf s 0 0) 0) 4
         decide (r.ret.length ≤ q.depth - q.q.length) = (n == 2))) := by
  refine ⟨by decide +kernel, by decide +kernel, sees_withDraw, by decide +kernel, by decide +kernel, by decide +kernel⟩

theorem witness_entropy_and_noise_trim :
    (let s : State := { up with ent := { up.ent with ok := 0x8, starting := 0x1 } }
     s.ent.ok.getLsbD (3 : PortId).val = true ∧ s.ent.starting.getLsbD (0 : PortId).val = true ∧ ∀ x ∈ s.xfers, x.kind ≠ .entropy) ∧
    (rctFails (List.replicate 41 true) = true ∧ rctFails (List.replicate 40 true) = false ∧
      aptFails (List.replicate 796 true) = true ∧ aptFails (List.replicate 795 true ++ List.replicate 229 false) = false) ∧
    (let l := (List.replicate 512 [true, false]).flatten
     l.length = 1024 ∧ rctPasses none 0 l = true ∧ aptFails l = false) ∧ Bar0 up 4 ∧
    (let s := withCluster .coppice { su := { noise := [(63, { trim := -32, failed := true })] } }
     s.tck.phase = .coppice ∧ s.tck.trimPos ≤ (0 : Cl).val * 64 + (63 : Fin 64).val ∧
       s.ent.trimLo ≤ (mget (clusterAt s 0).su.noise {} 63).trim ∧ (mget (clusterAt s 0).su.noise {} 63).trim ≤ s.ent.trimHi) ∧
    (inPhase .work).tck.phase ≠ .coppice ∧
    (let s : State := { inPhase .coppice with tck := { (inPhase .coppice).tck with trimPos := 1 } }
     (0 : Cl).val * 64 + (0 : Fin 64).val < s.tck.trimPos) := by
  refine ⟨by decide, by decide +kernel, by decide +kernel, bar0_up _, by decide, by decide, by decide⟩

/-- A RUNNING hedge whose plan has one settled checkpoint and one peer. -/
def annealing (a : Anneal) : Inst :=
  { inst .running with
    plan := some { loadedPlan with plan := { emptyPlan with
      checkpoints := [(64, true)], peers := [{ port := 0, flow := 0, exports := [], receives := [] }] } },
    ann := a }

/-- A checkpoint of an energy. -/
def ckpt (e : Int) : Ckpt := { cycle := 64, energy := e, settled := true, sweep := 0, accepts := 0, bramble := 0, states := [] }

theorem witness_annealing_runs :
    (let s := withInst .work (annealing {})
     (planCheckpoints (instAt s (1 : InstId).val))[(instAt s 1).ann.formed]? = some (64, true) ∧ hedgeWorks s 1 = true ∧
       (instAt s 1).ann.due = none) ∧
    (∀ e ∈ [(-1 : Int), 0], let s := withInst .work (annealing { due := some (ckpt e), eBestProv := some 0 })
      (instAt s 1).ann.due = some (ckpt e) ∧ hedgeWorks s 1 = true ∧
        ((ckpt e).settled && (instAt s 1).ann.eBestProv.all (fun b => decide ((ckpt e).energy < b))) = decide (e < 0)) ∧
    (let s := withInst .work (annealing {})
     formed (instAt s 1) = true ∧ Bar0 s (pgLeadSua (instAt s 1)) ∧
       (stagePar ((instAt s 1).ann.staged.getD (instAt s 1).ann.par) (0x20C : BitVec 12).toNat 5).isSome = true) ∧
    (∀ t ∈ [some 0, some 4, none], let s := portSt (annealing { peers := [(0, { applied := t })] }) 1 { rxq := [.kt (pkt 3)] }
      checkPkt (taken s) (0 : PortId).val (pkt 3) = .ok 0 1 ∧ peerOf (instAt (taken s) 1) 0 0 = some 0 ∧ (instAt s 1).st = .running) ∧
    (∀ off ∈ [500, 501], decide (ticking (inPhase .openP) = true ∧ (inPhase .openP).tck.phase = .openP ∧ off ≤ 500) = (off == 500)) ∧
    (decide (fullTick 3 2 ≤ ((4 : Nat) : Int)) = true ∧ decide (fullTick 3 2 ≤ ((0 : Nat) : Int)) = false) := by
  unfold Bar0; decide +kernel

/-! ### Worked examples of the spec -/

/-- 01_machine.md: the cluster at x = 13, y = 10 is 333, on C5, in the east half; its CLU page lies at 0x0126_8000, its SUA
page at 0x0126_B000. -/
theorem test_cluster_333 : dieOf 333 = 5 ∧ eastHalf 333 = true ∧ pgClu 333 0 * 4096 = 0x01268000 ∧ pgClu 333 3 * 4096 = 0x0126B000 := by
  decide

/-- 03_hedges.md: local cluster 9 of a hedge at (12, 2) of width 6 is cluster 111, on C1, east. -/
theorem test_local_cluster :
    globalId { inst .held with x0 := 12, y0 := 2, w := 6, h := 4 } 9 = 111 ∧
    localId { inst .held with x0 := 12, y0 := 2, w := 6, h := 4 } 111 = 9 ∧ dieOf 111 = 1 ∧ eastHalf 111 = true := by decide

/-- 02_tick.md: a discarded slot at hedge tick 5,003 leaves it there with lag 1 and count 1; the commit of the replay takes it
to 5,004, the count to 0, the lag staying. -/
theorem test_replay_example :
    (let i := instAt (endSlot (withInst .commit { inst .running with htick := 5003, dFault := true }) 1) 1
     i.htick = 5003 ∧ i.lag = 1 ∧ i.consec = 1) ∧
    (let i := instAt (endSlot (withInst .commit { inst .running with htick := 5003, lag := 1, consec := 1, committed := true }) 1) 1
     i.htick = 5004 ∧ i.lag = 1 ∧ i.consec = 0) := by decide +kernel

/-- 15_host.md: the DMA_IN of instance 5's driver passes the check with CHK 0x1B28, and with another CHK it does not. -/
theorem test_descriptor_check :
    descOk (desc [(0, 0x0104), (2, 0x1B28), (4, 0x0A2C), (8, 0x1020000000), (16, 0x30000000), (24, 0x100000)]) = true ∧
    descOk (desc [(0, 0x0104), (2, 0x1B29), (4, 0x0A2C), (8, 0x1020000000), (16, 0x30000000), (24, 0x100000)]) = false := by
  decide +kernel

/-- 20_registers.md: the SUA page of cluster 111 lies at 0x00B7_B000; its PG_ID reads 0x4306_F100 and its PG_OWN 9. -/
theorem test_sua_page_words :
    (let s : State := { up with insts := [(9, { inst .held with x0 := 12, y0 := 2, w := 6, h := 4 })], clusters := [(111, { owner := 9 })] }
     pgClu 111 3 * 4096 = 0x00B7B000 ∧ readWord s (pgClu 111 3) 0 = 0x4306F100 ∧ readWord s (pgClu 111 3) 0x1C = 9) := by
  decide +kernel

/-- 19_startup.md: CRC-32C of 7F 07 3C CA, and the check value of R439. -/
theorem test_crc32c : crc32c [0x7F, 0x07, 0x3C, 0xCA] = 0x7D8BB0C8 ∧
    crc32c [0x31, 0x32, 0x33, 0x34, 0x35, 0x36, 0x37, 0x38, 0x39] = 0xE3069283 := by decide +kernel

/-- The terms of 06_matrix.md, Cancellation, as FP16 in A at 0, and in B at 64 a first column of 1.0 over 24 rows of 8. -/
def cancellation : Bytes :=
  writeBytes (writeBytes [] 0 (([0x6C00] ++ List.replicate 7 0x0800 ++ List.replicate 3 0x0400 ++ List.replicate 5 0 ++ [0xEC00] ++
    List.replicate 7 0x0800).flatMap fun h => leBytes 2 h)) 64 ((List.range 24).flatMap fun _ => leBytes 2 0x3C00 ++ List.replicate 14 0)

/-- MATMUL of 1 × 24 by 24 × 8 in a mode and an output format, A at 0, B at 64, C at 1024. -/
def matmulCmd (mode outfmt : Nat) : UCmd :=
  { w0 := BitVec.ofNat 32 (1 + mode * 16 + outfmt * 256), w1 := 0x00010000, w2 := 16, w3 := BitVec.ofNat 32 (23 * 4096), sprig := 0,
    ctx := 0, at_ := 5 }

/-- Bytes of C after MATMUL. -/
def matmulWord (mode outfmt n : Nat) : Nat :=
  match exec (.meMatmul 0) (withCluster .work { me := { queue := [matmulCmd mode outfmt] }, store := cancellation }) with
  | .next t => readLe (settleAll (clusterAt t 0)).store 1024 n
  | _ => 0

/-- FP32 accumulation loses eleven units of 2^-14: 0x3AA0_0000. -/
theorem test_cancellation_fp32 : matmulWord 1 0 4 = 0x3AA00000 := by decide +kernel

/-- Half accumulation leaves 0x1200. -/
theorem test_cancellation_half : matmulWord 3 2 2 = 0x1200 := by decide +kernel

/-- 08_stochastic_units.md: with v = -1 and f = -1,200 units the move costs 2,400; at β = 2.5 and X_b = -13, x is 0.732421875. -/
theorem test_move_cost : deltaE false (-1) (-1200) = 2400 ∧ to32 (acceptX 2400 (f32 0x40200000) (-13)) = 0x3F3B8000 := by decide +kernel

/-- Under Metropolis it is accepted with noise 20,000 and rejected with 40,000. -/
theorem test_metropolis : accepts false (acceptX 2400 (f32 0x40200000) (-13)) 20000 = true ∧
    accepts false (acceptX 2400 (f32 0x40200000) (-13)) 40000 = false := by decide +kernel

/-- 10_random.md: 8 logits with K = 4 take 93 cycles; with τ = 0 they take 13. -/
theorem test_draw_cycles :
    drawCycles [(70, 0x80), (71, 0x3F), (66, 0x80), (67, 0x3F)] (drawCmd (ucmd 1 0x10007)) = 12 + 3 ∧
    drawCycles [(66, 0x80), (67, 0x3F)] (drawCmd (ucmd (1 + 4 * 512) 0x10007)) = 93 ∧
    drawCycles [] (drawCmd (ucmd (1 + 4 * 512) 0x10007)) = 13 := by decide +kernel

/-! ### One step each -/

/-- Register 1 of sprig 0 after one command. -/
def g1After (i : Instr) (w a b : Word) : Word :=
  let s := withCluster .work { sprigs := [(0, { prog := 1, imem := [(0, w)], c0 := { regs := [(2, a), (3, b)] } })] }
  match exec i s with
  | .next t => getReg (activeCtx t 0 0) 1
  | _ => 0

/-- 07_sprigs.md, Table — Instruction set: sums wrap, SRA keeps the sign, MIN is signed, shifts use rs2 mod 32. -/
theorem test_integer :
    g1After (.add 0 0 (fa false 0)) (wordA 0x01 (fa false 0)) 0xFFFFFFFF 2 = 1 ∧
    g1After (.sub 0 0 (fa false 0)) (wordA 0x02 (fa false 0)) 1 2 = 0xFFFFFFFF ∧
    g1After (.sra 0 0 (fa false 0)) (wordA 0x08 (fa false 0)) 0x80000000 36 = 0xF8000000 ∧
    g1After (.shr 0 0 (fa false 0)) (wordA 0x07 (fa false 0)) 0x80000000 32 = 0x80000000 ∧
    g1After (.min 0 0 (fa false 0)) (wordA 0x0B (fa false 0)) 0xFFFFFFFF 1 = 0xFFFFFFFF := by decide +kernel

/-- The FMUL of the worked program: a reading times 0.0625, and 0 × ∞ is the canonical NaN. -/
theorem test_fmul :
    g1After (.fmul 0 0 (fa false 0)) (wordA 0x22 (fa false 0)) 0x41800000 0x3D800000 = 0x3F800000 ∧
    g1After (.fmul 0 0 (fa false 0)) (wordA 0x22 (fa false 0)) 0 0x7F800000 = 0x7FC00000 := by decide +kernel

/-- Where a boundary leaves the tick unit. -/
def tickAfter (s : State) : Option (Phase × Word64) :=
  match exec (.tickBoundary (tickIn 20)) s with
  | .next t => some (t.tck.phase, t.tck.devTick)
  | _ => none

/-- R46: a boundary counts one device tick and opens the next tick; out of COMMIT it does not fall due. -/
theorem test_boundary : tickAfter (inPhase .commit) = some (.openP, 1) ∧ tickAfter (inPhase .work) = some (.work, 0) := by decide +kernel


end Sys2Proof.Tests
end

namespace Sys2Proof.Machine

/-! ## The slot that ends at a boundary (R47, R50–R53) -/

/-- A hedge reads the same in two states that agree on all hedges. -/
theorem instAt_congr {s t : State} (h : t.insts = s.insts) (i : Nat) : instAt t i = instAt s i := by
  unfold instAt
  rw [h]

@[simp] theorem instAt_burn (s : State) (n i : Nat) : instAt (burn s n) i = instAt s i := instAt_congr (by simp) i

@[simp] theorem instAt_bumpBy (s : State) (pg n k i : Nat) : instAt (bumpBy s pg n k) i = instAt s i :=
  instAt_congr (by simp) i

@[simp] theorem instAt_bump (s : State) (pg n i : Nat) : instAt (bump s pg n) i = instAt s i := instAt_congr (by simp) i

@[simp] theorem instAt_touch (s : State) (pg i : Nat) : instAt (touch s pg) i = instAt s i := instAt_congr (by simp) i

@[simp] theorem instAt_logErr (s : State) (r : Report) (i : Nat) : instAt (logErr s r) i = instAt s i :=
  instAt_congr (by simp) i

@[simp] theorem instAt_postEntry (s : State) (cq : Nat) (e : CqEntry) (i : Nat) :
    instAt (postEntry s cq e) i = instAt s i :=
  instAt_congr (by simp) i

/-- Only the completion entries held back for the hedge may have changed. -/
def HeldEntriesOnly (x y : Inst) : Prop := y = { x with heldEntries := y.heldEntries }

theorem HeldEntriesOnly.refl (x : Inst) : HeldEntriesOnly x x := rfl

theorem HeldEntriesOnly.trans {x y z : Inst} (hxy : HeldEntriesOnly x y) (hyz : HeldEntriesOnly y z) :
    HeldEntriesOnly x z := by
  unfold HeldEntriesOnly at *
  rw [hyz, hxy]

theorem postEventOn_instAt (s : State) (cq id : Nat) (held : Bool) (e : CqEntry) (i : Nat) :
    HeldEntriesOnly (instAt s i) (instAt (postEventOn s cq id held e) i) := by
  unfold postEventOn
  split
  · rw [instAt_bump]
    exact .refl _
  · split
    · rw [instAt_modInst]
      split
      · rename_i hi
        exact hi ▸ .refl _
      · exact .refl _
    · rw [instAt_postEntry]
      exact .refl _

/-- An event changes nothing of a hedge but the entries held back for it (R360). -/
theorem postEvent_instAt (s : State) (id code cause i : Nat) :
    HeldEntriesOnly (instAt s i) (instAt (postEvent s id code cause) i) := by
  rw [← instAt_burn s 1]
  unfold postEvent
  dsimp only
  split <;> split
  · exact (postEventOn_instAt ..).trans (postEventOn_instAt ..)
  · exact postEventOn_instAt ..
  · exact postEventOn_instAt ..
  · exact .refl _

/-- Posting what was held back for an owner changes nothing else of it. -/
theorem postOwner_instAt (s : State) (id : Nat) : HeldEntriesOnly (instAt s id) (instAt (postOwner s id) id) := by
  have h : (postOwner s id).insts = (modInst s id fun i => { i with heldEntries := [] }).insts := by
    simp [postOwner, instAt]
  rw [instAt_congr h, instAt_modInst, if_pos rfl]
  exact .refl _

theorem revertHedge_instAt (s : State) (h : Nat) : instAt (revertHedge s h) h = { instAt s h with pend := [] } := by
  have hfold : (revertHedge s h).insts = (dropPending s h).insts := foldl_keeps State.insts _ (fun t c => by simp) _ _
  rw [instAt_congr hfold, dropPending, instAt_bumpBy, instAt_setInst, if_pos rfl]

/-- A hedge that goes HELD keeps its counters and marks (R53). -/
theorem holdHedge_instAt (s : State) (h cause : Nat) :
    HeldEntriesOnly { instAt s h with st := .held, holdNext := none } (instAt (holdHedge s h cause) h) := by
  have hheld : instAt (modInst s h fun i => { i with st := .held, holdNext := none }) h =
      { instAt s h with st := .held, holdNext := none } := by rw [instAt_modInst, if_pos rfl]
  simp only [holdHedge, instAt_touch, instAt_logErr]
  rw [← hheld]
  exact (postOwner_instAt ..).trans (postEvent_instAt ..)

/-- The hedge whose slot ended, before it may go HELD. -/
def slotEnded (leaves : Bool) (i : Inst) : Inst :=
  nextMarks (countSlot leaves (if i.committed then i else { i with pend := [] }))

theorem slotEnded_of_committed {i : Inst} (leaves : Bool) (h : i.committed = true) :
    (slotEnded leaves i).htick = i.htick + 1 ∧ (slotEnded leaves i).lag = i.lag ∧ (slotEnded leaves i).consec = 0 ∧
    (slotEnded leaves i).outcome = 0 ∧ (slotEnded leaves i).redo = false := by
  simp [slotEnded, nextMarks, countSlot, h]

theorem slotEnded_of_discarded {i : Inst} (leaves : Bool) (h : i.committed = false) :
    (slotEnded leaves i).htick = i.htick ∧ (slotEnded leaves i).lag = i.lag + 1 ∧
    (slotEnded leaves i).consec = i.consec + 1 ∧ (slotEnded leaves i).outcome = slotOutcome i ∧
    (slotEnded leaves i).redo = leaves := by
  simp [slotEnded, nextMarks, countSlot, slotOutcome, h]

theorem slotEnded_fields (leaves : Bool) (i : Inst) :
    (slotEnded leaves i).st = i.st ∧ (slotEnded leaves i).holdNext = i.holdNext ∧
    (slotEnded leaves i).committed = false := by
  cases h : i.committed <;> simp [slotEnded, nextMarks, countSlot, h]

/-- A slot without a commit never has the outcome of one (R52). -/
theorem slotOutcome_ne_zero {i : Inst} (h : i.committed = false) : slotOutcome i ≠ 0 := by
  unfold slotOutcome
  rw [if_neg (by simp [h])]
  split
  · decide
  · split
    · decide
    · split <;> decide

/-- A hedge goes HELD when a hold was asked for, or at the third discard in a row (R53). -/
theorem heldCause_isSome (i : Inst) : (heldCause i).isSome = true ↔ i.holdNext.isSome ∨ 3 ≤ i.consec := by
  unfold heldCause
  split <;> simp [*]

/-- The boundary counts and marks the hedge, makes it HELD when there is a cause, and else changes only the entries
held back. -/
theorem endSlot_instAt (s : State) (h : Nat) :
    let e := slotEnded (leavesNow s h) (instAt s h)
    HeldEntriesOnly (if (heldCause e).isSome then { e with st := .held, holdNext := none } else e)
      (instAt (endSlot s h) h) := by
  intro e
  have hrevert : instAt (if (instAt s h).committed then s else revertHedge s h) h =
      if (instAt s h).committed then instAt s h else { instAt s h with pend := [] } := by
    split
    · rfl
    · exact revertHedge_instAt s h
  have hended : instAt (modInst (if (instAt s h).committed then s else revertHedge s h) h
      fun i => nextMarks (countSlot (leavesNow s h) i)) h = e := by
    rw [instAt_modInst, if_pos rfl, hrevert]
    rfl
  unfold endSlot
  dsimp only
  rw [hended]
  cases heldCause e with
  | none => exact hended ▸ .refl _
  | some c => exact hended ▸ holdHedge_instAt ..

/-- The counters and marks are those of `slotEnded`; only the state depends on a cause to hold. -/
theorem endSlot_fields (s : State) (h : Nat) :
    let e := slotEnded (leavesNow s h) (instAt s h)
    let j := instAt (endSlot s h) h
    j.htick = e.htick ∧ j.lag = e.lag ∧ j.consec = e.consec ∧ j.outcome = e.outcome ∧ j.committed = e.committed ∧
    j.redo = e.redo ∧ j.st = if (heldCause e).isSome then .held else e.st := by
  intro e j
  have hj : HeldEntriesOnly _ j := endSlot_instAt s h
  rw [hj]
  split <;> and_intros <;> rfl

end Sys2Proof.Machine

namespace Sys2Proof.Proofs
open Sys2Proof.Machine

/-- Settles O13: the boundary leaves what `slotEnded` counts, which a commit and a discard move as R47, R52 and R53 say. -/
theorem slotOutcome : Obligations.slot_outcome := by
  unfold Obligations.slot_outcome
  intro s h hrun i j
  obtain ⟨hst, hhold, hmark⟩ := slotEnded_fields (leavesNow s h) (instAt s h)
  obtain ⟨htick, hlag, hconsec, houtcome, hcommitted, hredo, hj⟩ := endSlot_fields s h
  have hstate : j.st = if i.holdNext.isSome ∨ 3 ≤ j.consec then .held else .running := by
    simpa only [heldCause_isSome, hhold, hst, hrun, ← hconsec] using hj
  cases hc : i.committed with
  | true =>
    obtain ⟨etick, elag, econsec, eoutcome, eredo⟩ := slotEnded_of_committed (leavesNow s h) hc
    exact ⟨fun _ => ⟨htick.trans etick, hlag.trans elag, hconsec.trans econsec, houtcome.trans eoutcome⟩, nofun,
      hcommitted.trans hmark, hredo.trans eredo, hstate⟩
  | false =>
    obtain ⟨etick, elag, econsec, eoutcome, eredo⟩ := slotEnded_of_discarded (leavesNow s h) hc
    exact ⟨nofun, fun _ => ⟨htick.trans etick, hlag.trans elag, hconsec.trans econsec,
      houtcome.trans eoutcome ▸ slotOutcome_ne_zero hc⟩, hcommitted.trans hmark, hredo.trans eredo, hstate⟩

end Sys2Proof.Proofs

namespace Sys2Proof.Machine

/-! ## The tick unit through a step

Most operations leave the tick unit alone (`f_tck`), and a few write fields of it other than the settings in force
(`f_inForce`): every command but the four of `movesDevTick` keeps these settings. The four decide what is staged, reset or
restore, and what they put in force is legal (`tickInv_f`). -/

@[simp] theorem tck_ite {c : Prop} [Decidable c] (s t : State) :
    (if c then s else t).tck = if c then s.tck else t.tck := apply_ite ..

@[simp] theorem tck_foldl {α : Type} (f : State → α → State) (l : List α) (s : State)
    (h : ∀ t a, (f t a).tck = t.tck) : (l.foldl f s).tck = s.tck := foldl_keeps State.tck f h l s

/-- What of the tick unit only a boundary, a reset or a start-up stage changes: the period, lock source and slew limit in
effect (R27, R30, R43) and the device tick counter (R46). -/
def Tck.inForce (k : Tck) : Nat × BitVec 2 × Nat × Word64 := (k.period, k.src, k.slew, k.devTick)

@[simp] theorem inForce_ite {c : Prop} [Decidable c] (k l : Tck) :
    (if c then k else l).inForce = if c then k.inForce else l.inForce := apply_ite ..

@[simp] theorem inForce_foldl {α : Type} (f : State → α → State) (l : List α) (s : State)
    (h : ∀ t a, (f t a).tck.inForce = t.tck.inForce) : (l.foldl f s).tck.inForce = s.tck.inForce :=
  foldl_keeps (·.tck.inForce) f h l s

/-- Whatever state a command answers next has in force what `s` has. -/
def InForceKept (s : State) (r : Result) : Prop := ∀ t, r = .next t → t.tck.inForce = s.tck.inForce

@[simp] theorem inForceKept_next (s t : State) : InForceKept s (.next t) ↔ t.tck.inForce = s.tck.inForce := by
  simp [InForceKept]

/-! ### Shared operations -/

@[simp] theorem recordColumn_tck (s : State) (d row p : Nat) : (recordColumn s d row p).tck = s.tck := by
  simp [recordColumn]

@[simp] theorem recordLane_tck (s : State) (m lane : Nat) : (recordLane s m lane).tck = s.tck := by simp [recordLane]

@[simp] theorem recordStitch_tck (s : State) (key : Nat) : (recordStitch s key).tck = s.tck := by simp [recordStitch]

@[simp] theorem recordPc_tck (s : State) (d p : Nat) : (recordPc s d p).tck = s.tck := by simp [recordPc]

@[simp] theorem freshWords_tck (s : State) (n : Nat) : (freshWords s n).2.tck = s.tck := by simp [freshWords]

/-! ### The tick unit (02_tick.md) -/

@[simp] theorem bar0Write_tck (s : State) (pg : Nat) (f : State → State) (h : ∀ t, (f t).tck = t.tck) :
    (bar0Write s pg f).tck = s.tck := by simp [bar0Write, h]

@[simp] theorem bar0Write_inForce (s : State) (pg : Nat) (f : State → State)
    (h : ∀ t, (f t).tck.inForce = t.tck.inForce) : (bar0Write s pg f).tck.inForce = s.tck.inForce := by
  simp [bar0Write, h]

@[simp] theorem execTckPeriodWrite_inForce (v : Word) (s : State) : InForceKept s (execTckPeriodWrite v s) := by
  simp only [execTckPeriodWrite, inForceKept_next]
  exact bar0Write_inForce _ _ _ fun _ => rfl

@[simp] theorem execTckCfgWrite_inForce (v : Word) (s : State) : InForceKept s (execTckCfgWrite v s) := by
  simp only [execTckCfgWrite, inForceKept_next]
  exact bar0Write_inForce _ _ _ fun _ => rfl

@[simp] theorem pairWrite_tck (s : State) (f low : Nat) (hi : Bool) (v : Word) (cur : Word64)
    (put : State → Word64 → State) (h : ∀ t w, (put t w).tck = t.tck) :
    (pairWrite s f low hi v cur put).tck = s.tck := by
  simp [pairWrite, h]

@[simp] theorem pairWrite_inForce (s : State) (f low : Nat) (hi : Bool) (v : Word) (cur : Word64)
    (put : State → Word64 → State) (h : ∀ t w, (put t w).tck.inForce = t.tck.inForce) :
    (pairWrite s f low hi v cur put).tck.inForce = s.tck.inForce := by
  simp [pairWrite, h]

@[simp] theorem execTckT0Write_inForce (hi : Bool) (v : Word) (s : State) :
    InForceKept s (execTckT0Write hi v s) := by
  simp only [execTckT0Write, inForceKept_next]
  exact bar0Write_inForce _ _ _ fun _ => pairWrite_inForce _ _ _ _ _ _ _ fun _ _ => rfl

@[simp] theorem execTckInofsWrite_inForce (v : Word) (s : State) : InForceKept s (execTckInofsWrite v s) := by
  simp only [execTckInofsWrite, inForceKept_next]
  exact bar0Write_inForce _ _ _ fun _ => rfl

@[simp] theorem startTick_inForce (s : State) (ptpNs : Nat) : (startTick s ptpNs).tck.inForce = s.tck.inForce := by
  unfold startTick
  split <;> simp [Tck.inForce]

@[simp] theorem stepTick_inForce (s : State) (ptpNs : Nat) : (stepTick s ptpNs).tck.inForce = s.tck.inForce := by
  unfold stepTick
  split
  · simp
  · split <;> rfl

@[simp] theorem loseSource_inForce (s : State) : (loseSource s).tck.inForce = s.tck.inForce := by
  simp [loseSource, Tck.inForce]

@[simp] theorem execTickInEdge_inForce (offsetNs : Int) (gapNs : Nat) (s : State) :
    InForceKept s (execTickInEdge offsetNs gapNs s) := by
  simp only [execTickInEdge, inForceKept_next]
  split
  · rfl
  · split
    · simp
    · split
      · rfl
      · split <;> [simp; rfl]

@[simp] theorem execTickInEdgeMissed_inForce (s : State) : InForceKept s (execTickInEdgeMissed s) := by
  simp only [execTickInEdgeMissed, inForceKept_next]
  split
  · split
    · rw [loseSource_inForce]
      simp [Tck.inForce]
    · simp [Tck.inForce]
  · rfl

@[simp] theorem execPpsInEdge_inForce (ptpNs : Word64) (gapNs widthNs : Nat) (s : State) :
    InForceKept s (execPpsInEdge ptpNs gapNs widthNs s) := by
  simp only [execPpsInEdge, inForceKept_next]
  split
  · rfl
  · split <;> [simp; rfl]

@[simp] theorem execLockAcquired_inForce (s : State) : InForceKept s (execLockAcquired s) := by
  unfold execLockAcquired
  split <;> simp [Tck.inForce]

@[simp] theorem execLockSourceReturn_inForce (phaseErr : Int) (s : State) :
    InForceKept s (execLockSourceReturn phaseErr s) := by
  unfold execLockSourceReturn
  split <;> simp [Tck.inForce]

@[simp] theorem decideT0_inForce (s : State) : (decideT0 s).tck.inForce = s.tck.inForce := by
  simp only [decideT0, modTck_fields]
  rcases s.tck.t0Staged with _ | v
  · dsimp only
    split <;> [rfl; (split <;> rfl)]
  · by_cases hv : v = s.tck.t0
    · simp only [if_pos hv]
      split <;> [rfl; (split <;> rfl)]
    · simp only [if_neg hv]
      split <;> [rfl; (split <;> rfl)]

@[simp] theorem shiftTicks_tck (s : State) : (shiftTicks s).tck = s.tck := by simp [shiftTicks]

@[simp] theorem tickOut_tck (s : State) : (tickOut s).tck = s.tck := by simp [tickOut]

@[simp] theorem coppiceCorrection_inForce (s : State) : (coppiceCorrection s).tck.inForce = s.tck.inForce := by
  simp [coppiceCorrection, Tck.inForce]

@[simp] theorem tickCommands_inForce (s : State) :
    (∀ ptpNs, InForceKept s (execStart ptpNs s)) ∧ (∀ ptpNs, InForceKept s (execStep ptpNs s)) ∧
    (∀ n ptpNs, InForceKept s (execTrigInputEdge n ptpNs s)) ∧ InForceKept s (execLockSourceLost s) ∧
    (∀ d, InForceKept s (execFollowerHoldoverLimit d s)) := by
  simp [execStart, execStep, execTrigInputEdge, execLockSourceLost, execFollowerHoldoverLimit]

/-! ### Calendars (03_hedges.md) -/

@[simp] theorem applySwap_tck (before s : State) (cal : Nat) :
    (applySwap before s cal).tck = s.tck := by
  simp [applySwap]

@[simp] theorem restartCalendars_tck (before s : State) : (restartCalendars before s).tck = s.tck := by
  simp [restartCalendars]

@[simp] theorem decideMargin_tck (before s : State) : (decideMargin before s).tck = s.tck := by
  unfold decideMargin
  split <;> simp

@[simp] theorem marginExhaustion_tck (s : State) : (marginExhaustion s).tck = s.tck := by simp [marginExhaustion]

@[simp] theorem enqueue_tck (s : State) (cal : Nat) (it : CalItem) : (enqueue s cal it).tck = s.tck := by
  simp [enqueue]

@[simp] theorem calendarCommands_inForce (s : State) :
    (∀ cal w v, InForceKept s (execCalTableWrite cal w v s)) ∧ (∀ cal, InForceKept s (execCalSwap cal s)) ∧
    (∀ v, InForceKept s (execMarginWrite v s)) := by
  simp [execCalTableWrite, execCalSwap, execMarginWrite]

/-! ### Memory (11_memory.md) -/

@[simp] theorem dualWrite_tck (s : State) (dpa : Nat) (bs : List Byte) : (dualWrite s dpa bs).tck = s.tck := by
  simp [dualWrite]

@[simp] theorem memWrite_tck (s : State) (dpa : Nat) (bs : List Byte) : (memWrite s dpa bs).tck = s.tck := by
  simp [memWrite]

@[simp] theorem memClear_tck (s : State) (dpa n : Nat) : (memClear s dpa n).tck = s.tck := by simp [memClear]

@[simp] theorem vaRun_tck (id : Nat) (s : State) (p : Nat × List Byte) : (vaRun id s p).tck = s.tck := by
  unfold vaRun
  dsimp only
  split
  · simp
  · split <;> simp

@[simp] theorem vaWrite_tck (s : State) (id va : Nat) (bs : List Byte) : (vaWrite s id va bs).tck = s.tck := by
  simp [vaWrite]

@[simp] theorem commitWindows_tck (s : State) (id : Nat) : (commitWindows s id).tck = s.tck := by simp [commitWindows]

@[simp] theorem dropPending_tck (s : State) (id : Nat) : (dropPending s id).tck = s.tck := by simp [dropPending]

@[simp] theorem writeSeg_tck (s : State) (id n w : Nat) (v : Word) : (writeSeg s id n w v).tck = s.tck := by
  simp [writeSeg]

@[simp] theorem applySegClears_tck (s : State) (id : Nat) : (applySegClears s id).tck = s.tck := by
  simp [applySegClears]

@[simp] theorem zeroSlot_tck (s : State) (id d cap : Nat) : (zeroSlot s id d cap).tck = s.tck := by
  unfold zeroSlot
  dsimp only
  split <;> simp

@[simp] theorem freeSegment_tck (s : State) (id n : Nat) : (freeSegment s id n).tck = s.tck := by simp [freeSegment]

@[simp] theorem copyMirror_tck (s : State) (c : Nat) : (copyMirror s c).tck = s.tck := by
  unfold copyMirror
  dsimp only
  split <;> simp

@[simp] theorem dataLoss_tck (s : State) (id kind addr : Nat) : (dataLoss s id kind addr).tck = s.tck := by
  simp [dataLoss]

@[simp] theorem markPc_tck (s : State) (d pc : Nat) (injected : Bool) : (markPc s d pc injected).tck = s.tck := by
  simp [markPc]

@[simp] theorem recopyMirror_tck (s : State) (c : Nat) : (recopyMirror s c).tck = s.tck := by simp [recopyMirror]

/-- What an uncorrectable line brings about leaves the tick unit alone. -/
@[simp] theorem lineResponse_tck (s t : State) (dpa : Nat) : ((lineResponse s dpa).2.2 t).tck = t.tck := by
  unfold lineResponse
  split
  · simp
  · split
    · rfl
    · dsimp only
      split
      · simp
      · split <;> split <;> [simp; (split <;> simp); simp; simp]

@[simp] theorem ueTable_tck (s t : State) (l : UeLoc) : ((ueTable s l).2.2.2.2 t).tck = t.tck := by
  unfold ueTable
  dsimp only
  split
  case h_1 => simp
  case h_3 => split <;> [rfl; (dsimp only; split <;> [simp; (split <;> simp)])]
  all_goals split <;> simp

@[simp] theorem ueRecord_tck (s : State) (l : UeLoc) (injected : Bool) : (ueRecord s l injected).tck = s.tck := by
  unfold ueRecord
  split <;> simp

@[simp] theorem uncorrectable_tck (s : State) (l : UeLoc) (injected : Bool) :
    (uncorrectable s l injected).tck = s.tck := (ueTable_tck s _ l).trans (by simp)

@[simp] theorem badLine_tck (s : State) (dpa : Nat) : (badLine s dpa).tck = s.tck := by
  have resp_tck := fun t => ueTable_tck s t (.line dpa)
  unfold badLine
  split
  · generalize ueTable s (.line dpa) = u at resp_tck ⊢
    simp [resp_tck]
  · simp

@[simp] theorem reportVa_tck (s : State) (h va n : Nat) : (reportVa s h va n).tck = s.tck := by simp [reportVa]

@[simp] theorem storeReport_tck (c : Nat) (s : State) (line : Nat) : (storeReport c s line).tck = s.tck :=
  (ueTable_tck s (logErr s _) _).trans (by simp)

@[simp] theorem reportPoison_tck (s : State) (c a n : Nat) : (reportPoison s c a n).tck = s.tck := by
  simp [reportPoison]

@[simp] theorem correctable_tck (s : State) (l : UeLoc) (injected : Bool) :
    (correctable s l injected).tck = s.tck := by
  unfold correctable
  split
  · split
    · dsimp only
      split <;> simp
    · simp
  all_goals simp

@[simp] theorem copyGranules_tck (s : State) (d lo hi : Nat) : (copyGranules s d lo hi).tck = s.tck := by
  simp [copyGranules]

@[simp] theorem switchReads_tck (s : State) (d : Nat) : (switchReads s d).tck = s.tck := by simp [switchReads]

@[simp] theorem execPcReadSwitch_inForce (d : Die) (s : State) : InForceKept s (execPcReadSwitch d s) := by
  unfold execPcReadSwitch
  dsimp only
  split <;> simp

@[simp] theorem memoryCommands_inForce (s : State) :
    (∀ h n w v, InForceKept s (execSegmentEntryWrite h n w v s)) ∧ (∀ h n, InForceKept s (execSegmentZeroed h n s)) ∧
    (∀ c, InForceKept s (execMirrorCopyDone c s)) ∧ (∀ d granules, InForceKept s (execPcMigrationStep d granules s)) := by
  simp [execSegmentEntryWrite, execSegmentZeroed, execMirrorCopyDone, execPcMigrationStep]

/-! ### Rings and transfers (15_host.md) -/

@[simp] theorem snapshotTails_tck (s : State) : (snapshotTails s).tck = s.tck := by simp [snapshotTails]

@[simp] theorem vfViolation_tck (s : State) (f : Nat) : (vfViolation s f).tck = s.tck := by simp [vfViolation]

@[simp] theorem ringDoorbell_tck (s : State) (r v : Nat) : (ringDoorbell s r v).tck = s.tck := by simp [ringDoorbell]

@[simp] theorem acceptDesc_tck (s : State) (r : Nat) (d : BitVec 512) : (acceptDesc s r d).tck = s.tck := by
  simp [acceptDesc]

@[simp] theorem beginDesc_tck (s : State) (r seq : Nat) : (beginDesc s r seq).tck = s.tck := by simp [beginDesc]

@[simp] theorem execDescNop_inForce (r : RingId) (s : State) : InForceKept s (execDescNop r s) := by
  unfold execDescNop
  split <;> simp

@[simp] theorem execFence_inForce (r : RingId) (s : State) : InForceKept s (execFence r s) := by
  unfold execFence
  split <;> simp

@[simp] theorem takeTag_tck (s : State) (i : Nat) : (takeTag s i).tck = s.tck := by simp [takeTag]

@[simp] theorem giveTag_tck (s : State) (i : Nat) : (giveTag s i).tck = s.tck := by simp [giveTag]

@[simp] theorem waitFor_tck (s : State) (x : Transfer) (cal n stop : Nat) : (waitFor s x cal n stop).tck = s.tck := by
  simp [waitFor]

@[simp] theorem readStage_tck (s : State) (x : Transfer) (k : Nat) : (readStage s x k).tck = s.tck := by
  simp [readStage]

@[simp] theorem spineStage_tck (s : State) (x : Transfer) (k n : Nat) : (spineStage s x k n).tck = s.tck := by
  simp [spineStage]

@[simp] theorem addXfer_tck (s : State) (x : Transfer) : (addXfer s x).tck = s.tck := by simp [addXfer]

@[simp] theorem startTransfer_tck (s : State) (x : Transfer) : (startTransfer s x).tck = s.tck := by
  simp [startTransfer]

@[simp] theorem execDmaIn_inForce (r : RingId) (data : List Byte) (s : State) :
    InForceKept s (execDmaIn r data s) := by
  simp only [execDmaIn, inForceKept_next]
  split
  · rfl
  · split
    · simp
    · split <;> simp

@[simp] theorem execDmaOut_inForce (r : RingId) (s : State) : InForceKept s (execDmaOut r s) := by
  unfold execDmaOut
  split <;> simp

@[simp] theorem execDrawEntropy_inForce (r : RingId) (s : State) : InForceKept s (execDrawEntropy r s) := by
  unfold execDrawEntropy
  split <;> simp

@[simp] theorem execTraceRead_inForce (r : RingId) (s : State) : InForceKept s (execTraceRead r s) := by
  unfold execTraceRead
  split <;> simp

@[simp] theorem modXfer_tck (s : State) (id : Nat) (f : Transfer → Transfer) : (modXfer s id f).tck = s.tck := by
  simp [modXfer]

@[simp] theorem readFor_tck (s : State) (x : Transfer) (k n : Nat) : (readFor s x k n).tck = s.tck := by
  simp [readFor]

@[simp] theorem readOn_tck (s : State) (x : Transfer) (stop left n : Nat) : (readOn s x stop left n).tck = s.tck := by
  simp [readOn]

@[simp] theorem spineOut_tck (s : State) (x : Transfer) (n stop : Nat) : (spineOut s x n stop).tck = s.tck := by
  unfold spineOut
  split <;> simp

@[simp] theorem toSink_tck (s : State) (n bytes : Nat) : (toSink s n bytes).tck = s.tck := by simp [toSink]

@[simp] theorem sinkReturn_tck (s : State) (x : Transfer) (n : Nat) : (sinkReturn s x n).tck = s.tck := by
  simp [sinkReturn]

@[simp] theorem moveDma_tck (s : State) (xid cal stop left n : Nat) :
    (moveDma s xid cal stop left n).tck = s.tck := by
  unfold moveDma
  split
  · rfl
  · dsimp only
    split
    · split <;> simp
    · split <;> simp
    · simp
    · simp
    · split <;> simp
    · simp

@[simp] theorem drawEntropy_tck (s : State) (xid n : Nat) : (drawEntropy s xid n).tck = s.tck := by
  unfold drawEntropy
  split <;> simp

@[simp] theorem dropXferItems_tck (s : State) (xid : Nat) : (dropXferItems s xid).tck = s.tck := by
  simp [dropXferItems]

@[simp] theorem dropXfer_tck (s : State) (id : Nat) : (dropXfer s id).tck = s.tck := by simp [dropXfer]

@[simp] theorem endTransfer_tck (s : State) (x : Transfer) (status : Nat) : (endTransfer s x status).tck = s.tck := by
  unfold endTransfer
  split
  · simp
  · split <;> simp

@[simp] theorem execTransferDone_inForce (id : Nat) (s : State) : InForceKept s (execTransferDone id s) := by
  unfold execTransferDone
  split <;> simp

@[simp] theorem execHostCompletionTimeout_inForce (id : Nat) (s : State) :
    InForceKept s (execHostCompletionTimeout id s) := by
  unfold execHostCompletionTimeout
  split <;> simp

@[simp] theorem publishInputs_tck (s : State) (id : Nat) : (publishInputs s id).tck = s.tck := by simp [publishInputs]

@[simp] theorem holdAllHost_tck (s : State) : (holdAllHost s).tck = s.tck := by simp [holdAllHost]

@[simp] theorem dropReadCpls_tck (s : State) : (dropReadCpls s).tck = s.tck := by simp [dropReadCpls]

@[simp] theorem failOver_tck (s : State) : (failOver s).tck = s.tck := by simp [failOver]

@[simp] theorem hostCommands_inForce (s : State) :
    (∀ f r v, InForceKept s (execDoorbell f r v s)) ∧ (∀ r d, InForceKept s (execDescriptorFetch r d s)) ∧
    (∀ link, InForceKept s (execPcieLinkDown link s)) ∧
    (∀ link speed width, InForceKept s (execPcieLinkUp link speed width s)) ∧
    InForceKept s (execHostLinkFailover s) ∧ InForceKept s (execFailoverForce s) ∧ InForceKept s (execP1LinkLost s) ∧
    (∀ h on, InForceKept s (execVfEnable h on s)) := by
  simp [execDoorbell, execDescriptorFetch, execPcieLinkDown, execPcieLinkUp, execHostLinkFailover, execFailoverForce,
    execP1LinkLost, execVfEnable]

/-! ### Network ports and the Kaluri transport (13_links.md) -/

@[simp] theorem modFlowX_tck (s : State) (n f : Nat) (g : FlowX → FlowX) : (modFlowX s n f g).tck = s.tck := by
  simp [modFlowX]

@[simp] theorem modChanX_tck (s : State) (h c : Nat) (g : ChanX → ChanX) : (modChanX s h c g).tck = s.tck := by
  simp [modChanX]

@[simp] theorem setChanBit_tck (s : State) (h c n : Nat) (on : Bool) : (setChanBit s h c n on).tck = s.tck := by
  simp [setChanBit]

@[simp] theorem countDrop_tck (s : State) (h : Nat) : (countDrop s h).tck = s.tck := by simp [countDrop]

@[simp] theorem queueFrame_tck (s : State) (n : Nat) (f : TxFrame) : (queueFrame s n f).tck = s.tck := by
  simp [queueFrame]

@[simp] theorem sendFrame_tck (s : State) (n sub : Nat) (f : TxFrame) : (sendFrame s n sub f).tck = s.tck := by
  unfold sendFrame
  split <;> simp

@[simp] theorem pausedPlanned_tck (s : State) (n : Nat) (l : List TxFrame) : (pausedPlanned s n l).tck = s.tck := by
  unfold pausedPlanned
  split <;> simp

@[simp] theorem markUsed_tck (s : State) (n b : Nat) : (markUsed s n b).tck = s.tck := by simp [markUsed]

@[simp] theorem stampSent_tck (s : State) (h c : Nat) (psn : Word) (ns : Nat) :
    (stampSent s h c psn ns).tck = s.tck := by simp [stampSent]

@[simp] theorem startFrame_tck (s : State) (n sub m : Nat) (f : TxFrame) : (startFrame s n sub m f).tck = s.tck := by
  unfold startFrame
  split <;> simp

@[simp] theorem egressSub_tck (n o m : Nat) (s : State) (sub : Nat) : (egressSub n o m s sub).tck = s.tck := by
  unfold egressSub
  dsimp only
  split
  · simp
  · split
    · rfl
    · split
      · split <;> simp
      · simp

@[simp] theorem egressSlot_tck (s : State) (n m : Nat) : (egressSlot s n m).tck = s.tck := by simp [egressSlot]

@[simp] theorem startUnplanned_tck (s : State) (n m : Nat) (f : TxFrame) : (startUnplanned s n m f).tck = s.tck := by
  simp [startUnplanned]

@[simp] theorem pfcStep_tck (s : State) (n q : Nat) : (pfcStep s n q).tck = s.tck := by simp [pfcStep]

@[simp] theorem pfcAll_tck (s : State) (n : Nat) : (pfcAll s n).tck = s.tck := by simp [pfcAll]

@[simp] theorem rxOther_tck (s : State) (n : Nat) : (rxOther s n).tck = s.tck := by simp [rxOther]

@[simp] theorem rxPut_tck (s : State) (n : Nat) (b : FrameBody) : (rxPut s n b).tck = s.tck := by simp [rxPut]

@[simp] theorem countAuth_tck (s : State) (h : Nat) : (countAuth s h).tck = s.tck := by simp [countAuth]

@[simp] theorem sortKt_tck (s : State) (n : Nat) (p : KtPacket) : (sortKt s n p).tck = s.tck := by
  unfold sortKt
  split <;> simp

@[simp] theorem sortPtp_tck (s : State) (n transport : Nat) (m : PtpMsg) : (sortPtp s n transport m).tck = s.tck := by
  simp [sortPtp]

@[simp] theorem sortUdp_tck (s : State) (n : PortId) (f : EthFrame) (u : Udp) : (sortUdp s n f u).tck = s.tck := by
  unfold sortUdp
  dsimp only
  split
  · simp
  · split
    · split <;> simp
    · split
      · split <;> simp
      · simp

@[simp] theorem execEthFrameReceive_inForce (n : PortId) (f : EthFrame) (s : State) :
    InForceKept s (execEthFrameReceive n f s) := by
  simp only [execEthFrameReceive, inForceKept_next]
  generalize (ethAt s n.val).up.getLsbD _ = up
  split
  · rfl
  · split
    · simp
    · split
      · simp
      · split
        · simp
        · split
          · simp
          · split <;> simp

theorem takeFrame_tck {s t : State} {n : Nat} {p : FrameBody → Bool} {b : FrameBody}
    (h : takeFrame s n p = some (b, t)) : t.tck = s.tck := by
  unfold takeFrame at h
  split at h
  · cases h; simp
  · cases h

@[simp] theorem queueMgmt_tck (s : State) (n sub : Nat) (b : TxBody) : (queueMgmt s n sub b).tck = s.tck := by
  simp [queueMgmt]

@[simp] theorem execArpRequest_inForce (n : PortId) (s : State) : InForceKept s (execArpRequest n s) := by
  simp only [execArpRequest, inForceKept_next]
  split
  · rename_i he
    simp [takeFrame_tck he]
  · rfl

@[simp] theorem execNeighbourSolicitation_inForce (n : PortId) (s : State) :
    InForceKept s (execNeighbourSolicitation n s) := by
  simp only [execNeighbourSolicitation, inForceKept_next]
  split
  · rename_i he
    simp [takeFrame_tck he]
  · rfl

@[simp] theorem execPfcReceive_inForce (n : PortId) (prios : BitVec 8) (s : State) :
    InForceKept s (execPfcReceive n prios s) := by
  simp only [execPfcReceive, inForceKept_next]
  split
  · rename_i he
    simp [takeFrame_tck he]
  · rfl

@[simp] theorem queuePtp_tck (s : State) (k : PtpTx) : (queuePtp s k).tck = s.tck := by simp [queuePtp]

@[simp] theorem ptpProcess_tck (s : State) (m : PtpMsg) : (ptpProcess s m).tck = s.tck := by
  unfold ptpProcess
  split <;> simp

@[simp] theorem execPtpMessageReceive_inForce (s : State) : InForceKept s (execPtpMessageReceive s) := by
  simp only [execPtpMessageReceive, inForceKept_next]
  split
  · rename_i he
    simp [takeFrame_tck he]
  · rfl

@[simp] theorem execPtpMessageTransmit_inForce (k : PtpTx) (s : State) :
    InForceKept s (execPtpMessageTransmit k s) := by
  simp only [execPtpMessageTransmit, inForceKept_next]
  split <;> [(split <;> simp); (split <;> simp); (split <;> simp); rfl; rfl]

@[simp] theorem writePtpCfg_tck (v : Word) (s : State) : (writePtpCfg v s).tck = s.tck := by simp [writePtpCfg]

@[simp] theorem applyPtpPort_inForce (s : State) : (applyPtpPort s).tck.inForce = s.tck.inForce := by
  unfold applyPtpPort
  split
  · rfl
  · dsimp only
    split <;> rfl

@[simp] theorem verdictDrop_tck (s : State) (n : Nat) (p : KtPacket) (a : PktVerdict) :
    (verdictDrop s n p a).tck = s.tck := by
  unfold verdictDrop
  split <;> simp

@[simp] theorem deliverStage_tck (s : State) (d : Delivery) (k n : Nat) : (deliverStage s d k n).tck = s.tck := by
  simp [deliverStage]

@[simp] theorem countArrival_tck (s : State) (h ns : Nat) (p : KtPacket) : (countArrival s h ns p).tck = s.tck := by
  simp [countArrival]

@[simp] theorem receiveData_tck (s : State) (n f h : Nat) (p : KtPacket) : (receiveData s n f h p).tck = s.tck := by
  unfold receiveData
  split
  · simp
  · split <;> simp

@[simp] theorem withPkt_tck (s : State) (n : Nat) (types : KtPacket → Bool)
    (act : State → Nat → Nat → KtPacket → State) (h : ∀ t f h p, (act t f h p).tck = t.tck) :
    (withPkt s n types act).tck = s.tck := by
  unfold withPkt
  split
  · rename_i he
    split <;> simp [h, takeFrame_tck he]
  · rfl

@[simp] theorem dropDeliveries_tck (s : State) (p : Delivery → Bool) : (dropDeliveries s p).tck = s.tck := by
  simp [dropDeliveries]

@[simp] theorem countSilent_tck (s : State) (h chan packets : Nat) : (countSilent s h chan packets).tck = s.tck := by
  simp [countSilent]

@[simp] theorem releaseSend_tck (h n : Nat) (s : State) (e : SendEntry) : (releaseSend h n s e).tck = s.tck := by
  simp [releaseSend]

@[simp] theorem releaseSends_tck (s : State) (h : Nat) : (releaseSends s h).tck = s.tck := by
  unfold releaseSends
  split <;> simp

@[simp] theorem releasePkt_tck (s : State) (h chan send off : Nat) (data : List Byte) :
    (releasePkt s h chan send off data).tck = s.tck := by simp [releasePkt]

@[simp] theorem packSends_tck (h n : Nat) (s : State) : (packSends h n s).tck = s.tck := by
  induction n generalizing s with
  | zero => rfl
  | succ n ih =>
    unfold packSends
    split
    · rfl
    · split
      · simp [ih]
      · rfl

@[simp] theorem packAll_tck (s : State) (h : Nat) : (packAll s h).tck = s.tck := by simp [packAll]

@[simp] theorem dropUnsent_tck (s : State) (h : Nat) : (dropUnsent s h).tck = s.tck := by simp [dropUnsent]

@[simp] theorem dropSends_tck (s : State) (h : Nat) : (dropSends s h).tck = s.tck := by simp [dropSends]

@[simp] theorem abandonSends_tck (s : State) (h : Nat) : (abandonSends s h).tck = s.tck := by simp [abandonSends]

@[simp] theorem execKtAckSend_inForce (h : InstId) (ch : Fin 64) (s : State) :
    InForceKept s (execKtAckSend h ch s) := by
  simp only [execKtAckSend, inForceKept_next]
  split
  · split <;> simp
  · rfl

@[simp] theorem failChannel_tck (s : State) (h ch : Nat) : (failChannel s h ch).tck = s.tck := by simp [failChannel]

@[simp] theorem countRetx_tck (s : State) (h ch : Nat) (psn : Word) (ns : Nat) :
    (countRetx s h ch psn ns).tck = s.tck := by simp [countRetx]

@[simp] theorem execKtRetransmit_inForce (h : InstId) (ch : Fin 64) (psn : Word) (s : State) :
    InForceKept s (execKtRetransmit h ch psn s) := by
  unfold execKtRetransmit
  dsimp only
  split <;> simp

@[simp] theorem ageKt_tck (ns : Nat) (s : State) : (ageKt ns s).tck = s.tck := by simp [ageKt]

@[simp] theorem dropFlowSends_tck (s : State) (n f h : Nat) : (dropFlowSends s n f h).tck = s.tck := by
  simp [dropFlowSends]

@[simp] theorem sendAbortAck_tck (s : State) (n f : Nat) : (sendAbortAck s n f).tck = s.tck := by simp [sendAbortAck]

@[simp] theorem abortFlow_tck (s : State) (n f h : Nat) : (abortFlow s n f h).tck = s.tck := by simp [abortFlow]

@[simp] theorem execKtAbortReceive_inForce (n : PortId) (s : State) : InForceKept s (execKtAbortReceive n s) := by
  simp only [execKtAbortReceive, inForceKept_next]
  split
  · rename_i he
    split
    · simp [takeFrame_tck he]
    · split <;> simp [takeFrame_tck he]
    · simp [takeFrame_tck he]
  · rfl

@[simp] theorem sendAbort_tck (s : State) (n f : Nat) : (sendAbort s n f).tck = s.tck := by simp [sendAbort]

@[simp] theorem writeFlow_tck (n f w : Nat) (v : Word) (s : State) : (writeFlow n f w v s).tck = s.tck := by
  simp [writeFlow]

@[simp] theorem applyFlowIncarn_tck (s : State) : (applyFlowIncarn s).tck = s.tck := by simp [applyFlowIncarn]

@[simp] theorem installKey_tck (n : Nat) (v : Word) (s : State) : (installKey n v s).tck = s.tck := by
  simp [installKey]

@[simp] theorem writeChan_tck (h k : Nat) (v : Word) (s : State) : (writeChan h k v s).tck = s.tck := by
  simp [writeChan]

@[simp] theorem applyChannel_tck (runB : Bool) (h : Nat) (s : State) (c : Nat) :
    (applyChannel runB h s c).tck = s.tck := by simp [applyChannel]

@[simp] theorem applyChannels_tck (runB : Nat → Bool) (s : State) : (applyChannels runB s).tck = s.tck := by
  simp [applyChannels]

@[simp] theorem writeCountLines_tck (s : State) : (writeCountLines s).tck = s.tck := by simp [writeCountLines]

@[simp] theorem linkCommands_inForce (s : State) :
    (∀ n prio, InForceKept s (execPfcPauseExpiry n prio s)) ∧ (∀ v, InForceKept s (execPtpCfgWrite v s)) ∧
    (∀ n, InForceKept s (execKtPacketReceive n s)) ∧ (∀ n, InForceKept s (execKtAckReceive n s)) ∧
    (∀ n, InForceKept s (execAbortAckReceive n s)) ∧ (∀ h, InForceKept s (execAbortResend h s)) ∧
    (∀ n subs, InForceKept s (execEthLinkDown n subs s)) ∧ (∀ n subs, InForceKept s (execEthLinkUp n subs s)) ∧
    (∀ n f w v, InForceKept s (execFlowEntryWrite n f w v s)) ∧ (∀ n v, InForceKept s (execKeyInstall n v s)) ∧
    (∀ h ch w v, InForceKept s (execChannelEntryWrite h ch w v s)) := by
  simp [execPfcPauseExpiry, execPtpCfgWrite, execKtPacketReceive, execKtAckReceive, execAbortAckReceive, execAbortResend,
    execEthLinkDown, execEthLinkUp, execFlowEntryWrite, execKeyInstall, execChannelEntryWrite]

/-! ### The mesh (05_fabric.md) -/

@[simp] theorem modNet_tck (s : State) (h : Nat) (f : Net → Net) : (modNet s h f).tck = s.tck := by simp [modNet]

@[simp] theorem modOp_tck (s : State) (c tag : Nat) (f : Op → Op) : (modOp s c tag f).tck = s.tck := by simp [modOp]

@[simp] theorem sendFlits_tck (s : State) (h src unit : Nat) (c : Cl) (tag : Nat) (back : Bool)
    (dst : Cl) (vc : Fin 4) (n : Nat) (t : Nat → Nat) :
    (sendFlits s h src unit c tag back dst vc n t).tck = s.tck := by simp [sendFlits]

@[simp] theorem addStall_tck (s : State) (r o vc n : Nat) : (addStall s r o vc n).tck = s.tck := by simp [addStall]

@[simp] theorem bringLine_tck (c tag beat t : Nat) (line : List Byte) (s : State) :
    (bringLine c tag beat t line s).tck = s.tck := by
  unfold bringLine
  split
  · simp
  · split <;> simp

@[simp] theorem ejectFlit_tck (s : State) (f : Flit) (t : Nat) : (ejectFlit s f t).tck = s.tck := by
  unfold ejectFlit
  split
  · simp
  · split <;> simp

@[simp] theorem moveFlit_tck (h t r : Nat) (s : State) (g : Nat × Nat × Nat) : (moveFlit h t r s g).tck = s.tck := by
  unfold moveFlit
  dsimp only
  split
  · rfl
  · split
    · simp
    · split <;> simp

@[simp] theorem routerCycle_tck (h t : Nat) (x : Net) (s : State) (r : Nat) :
    (routerCycle h t x s r).tck = s.tck := by
  refine foldl_keeps State.tck _ (fun t o => ?_) _ _
  dsimp only
  split <;> simp

@[simp] theorem serveAccess_tck (h t : Nat) (s : State) (a : Access) : (serveAccess h t s a).tck = s.tck := by
  unfold serveAccess
  dsimp only
  split
  · simp
  · split
    · simp
    · split <;> simp

@[simp] theorem portCycle_tck (h t : Nat) (s : State) (slice : Nat) : (portCycle h t s slice).tck = s.tck := by
  unfold portCycle
  dsimp only
  split <;> simp

@[simp] theorem netCycle_tck (s : State) (h t : Nat) : (netCycle s h t).tck = s.tck := by simp [netCycle]

@[simp] theorem netUntil_tck (h : Nat) (p : State → Bool) (n : Nat) (s : State) : (netUntil h p n s).tck = s.tck :=
  netUntil_keeps State.tck h p (fun s t => netCycle_tck s h t) n s

@[simp] theorem netTo_tck (h upto n : Nat) (s : State) : (netTo h upto n s).tck = s.tck :=
  netTo_keeps State.tck h upto (fun s t => netCycle_tck s h t) n s

/-! ### Sprigs (07_sprigs.md) -/

/-- An instruction changes of the tick unit what its effect changes: nothing, if the effect leaves it alone. -/
@[simp] theorem runInstr_inForce (s u : State) (c p : Nat) (w : Word) (rs : List Nat) (div : Bool)
    (blocked : Env → Option Wait) (eff : Env → State → State) (hu : u.tck = s.tck)
    (h : ∀ e t, (eff e t).tck = t.tck) : InForceKept s (runInstr u c p w rs div blocked eff) := by
  simp only [runInstr, inForceKept_next]
  split
  · generalize Nat.max _ (Nat.max _ _) = t
    split
    · simp [hu]
    · split <;> simp [h, hu]
  · rw [hu]

@[simp] theorem storeReady_tck (s : State) (c p : Nat) (w : Word) (rs : List Nat) :
    (storeReady s c p w rs).tck = s.tck := by simp [storeReady]

@[simp] theorem modIssuer_tck (s : State) (c p : Nat) (a : Fin 4) (f : Ctx → Ctx) :
    (modIssuer s c p a f).tck = s.tck := by simp [modIssuer]

@[simp] theorem regInstr_inForce (s : State) (c p : Nat) (w : Word) (rs : List Nat)
    (pred : Fin 8) (pneg : Bool) (rd lat : Nat) (v : Ctx → Word) :
    InForceKept s (regInstr s c p w rs pred pneg rd lat v) := by simp [regInstr]

@[simp] theorem aluA_inForce (op lat : Nat) (v : Word → Word → Word) (c : Cl) (p : Sp) (f : FmtA) (s : State) :
    InForceKept s (aluA op lat v c p f s) := by simp [aluA]

@[simp] theorem aluB_inForce (op : Nat) (v : Word → Word → Word) (c : Cl) (p : Sp) (f : FmtB) (s : State) :
    InForceKept s (aluB op v c p f s) := by simp [aluB]

@[simp] theorem execNop_inForce (c : Cl) (p : Sp) (f : FmtC) (s : State) : InForceKept s (execNop c p f s) := by
  simp [execNop]

@[simp] theorem integerInstructions_inForce (s : State) :
    (∀ c p f, InForceKept s (execAdd c p f s)) ∧ (∀ c p f, InForceKept s (execSub c p f s)) ∧
    (∀ c p f, InForceKept s (execAnd c p f s)) ∧ (∀ c p f, InForceKept s (execOr c p f s)) ∧
    (∀ c p f, InForceKept s (execXor c p f s)) ∧ (∀ c p f, InForceKept s (execShl c p f s)) ∧
    (∀ c p f, InForceKept s (execShr c p f s)) ∧ (∀ c p f, InForceKept s (execSra c p f s)) ∧
    (∀ c p f, InForceKept s (execMul c p f s)) ∧ (∀ c p f, InForceKept s (execMin c p f s)) ∧
    (∀ c p f, InForceKept s (execMax c p f s)) ∧ (∀ c p f, InForceKept s (execAddi c p f s)) ∧
    (∀ c p f, InForceKept s (execAndi c p f s)) ∧ (∀ c p f, InForceKept s (execOri c p f s)) ∧
    (∀ c p f, InForceKept s (execShli c p f s)) ∧ (∀ c p f, InForceKept s (execShri c p f s)) ∧
    (∀ c p f, InForceKept s (execLui c p f s)) := by
  simp [execAdd, execSub, execAnd, execOr, execXor, execShl, execShr, execSra, execMul, execMin, execMax, execAddi,
    execAndi, execOri, execShli, execShri, execLui]

@[simp] theorem orSpg_tck (s : State) (c : Nat) (fl : BitVec 4) : (orSpg s c fl).tck = s.tck := by simp [orSpg]

@[simp] theorem predInstr_inForce (s : State) (c p : Nat) (w : Word) (rs : List Nat)
    (pred : Fin 8) (pneg : Bool) (pd : Nat) (v : Ctx → Bool × BitVec 4) :
    InForceKept s (predInstr s c p w rs pred pneg pd v) := by simp [predInstr]

@[simp] theorem predicateInstructions_inForce (s : State) :
    (∀ c p f, InForceKept s (execCmp c p f s)) ∧ (∀ c p f, InForceKept s (execCmpi c p f s)) ∧
    (∀ c p f, InForceKept s (execPlog c p f s)) ∧ (∀ c p f, InForceKept s (execSel c p f s)) := by
  simp [execCmp, execCmpi, execPlog, execSel]

@[simp] theorem fpInstr_inForce (op lat : Nat) (rs : List Nat) (div : Bool)
    (v : Ctx → Word × BitVec 4) (c : Cl) (p : Sp) (f : FmtA) (s : State) :
    InForceKept s (fpInstr op lat rs div v c p f s) := by simp [fpInstr]

@[simp] theorem fpInstructions_inForce (s : State) :
    (∀ c p f, InForceKept s (execFadd c p f s)) ∧ (∀ c p f, InForceKept s (execFsub c p f s)) ∧
    (∀ c p f, InForceKept s (execFmul c p f s)) ∧ (∀ c p f, InForceKept s (execFma c p f s)) ∧
    (∀ c p f, InForceKept s (execFdiv c p f s)) ∧ (∀ c p f, InForceKept s (execFsqrt c p f s)) ∧
    (∀ c p f, InForceKept s (execFcvt c p f s)) := by
  simp [execFadd, execFsub, execFmul, execFma, execFdiv, execFsqrt, execFcvt]

@[simp] theorem dataLoad_inForce (op n : Nat) (c : Cl) (p : Sp) (f : FmtB) (s : State) :
    InForceKept s (dataLoad op n c p f s) := by simp [dataLoad]

@[simp] theorem dataStore_inForce (op n : Nat) (c : Cl) (p : Sp) (f : FmtB) (s : State) :
    InForceKept s (dataStore op n c p f s) := by simp [dataStore]

@[simp] theorem takeBank_tck (c : Nat) (f : FmtB) (e : Env) (s : State) : (takeBank c f e s).tck = s.tck := by
  simp [takeBank]

@[simp] theorem memoryInstructions_inForce (s : State) :
    (∀ c p f, InForceKept s (execLd c p f s)) ∧ (∀ c p f, InForceKept s (execSt c p f s)) ∧
    (∀ c p f, InForceKept s (execLdh c p f s)) ∧ (∀ c p f, InForceKept s (execSth c p f s)) ∧
    (∀ c p f, InForceKept s (execLdc c p f s)) ∧ (∀ c p f, InForceKept s (execStc c p f s)) := by
  simp [execLd, execSt, execLdh, execSth, execLdc, execStc]

@[simp] theorem execPush_inForce (c : Cl) (p : Sp) (f : FmtA) (s : State) : InForceKept s (execPush c p f s) := by
  unfold execPush
  dsimp only
  split <;> simp

@[simp] theorem execPop_inForce (c : Cl) (p : Sp) (f : FmtA) (s : State) : InForceKept s (execPop c p f s) := by
  simp [execPop]

@[simp] theorem execPeek_inForce (c : Cl) (p : Sp) (f : FmtA) (s : State) : InForceKept s (execPeek c p f s) := by
  simp [execPeek]

@[simp] theorem execQueueEntryArrival_inForce (c : Cl) (p : Sp) (x : Cx) (q : Fin 5) (s : State) :
    InForceKept s (execQueueEntryArrival c p x q s) := by
  unfold execQueueEntryArrival
  dsimp only
  split <;> simp

@[simp] theorem execQueueCreditReturn_inForce (c : Cl) (p : Sp) (x : Cx) (q : Fin 5) (s : State) :
    InForceKept s (execQueueCreditReturn c p x q s) := by
  unfold execQueueCreditReturn
  dsimp only
  split <;> simp

@[simp] theorem unitInstructions_inForce (s : State) :
    (∀ c p f, InForceKept s (execMec c p f s)) ∧ (∀ c p f, InForceKept s (execSuc c p f s)) ∧
    (∀ c p f, InForceKept s (execDrc c p f s)) := by
  simp [execMec, execSuc, execDrc]

@[simp] theorem execRnd_inForce (c : Cl) (p : Sp) (f : FmtA) (s : State) : InForceKept s (execRnd c p f s) := by
  simp [execRnd]

@[simp] theorem controlInstructions_inForce (s : State) :
    (∀ c p f, InForceKept s (execLoop c p f s)) ∧ (∀ c p f, InForceKept s (execQset c p f s)) ∧
    (∀ c p f, InForceKept s (execEndI c p f s)) ∧ (∀ c p f, InForceKept s (execIdle c p f s)) ∧
    (∀ c p x, InForceKept s (execIdleWaitEnd c p x s)) ∧ (∀ c p f, InForceKept s (execSrd c p f s)) ∧
    (∀ c p, InForceKept s (execLayingSlotSwitch c p s)) ∧ (∀ h, InForceKept s (execEndMarkerReached h s)) := by
  simp [execLoop, execQset, execEndI, execIdle, execIdleWaitEnd, execSrd, execLayingSlotSwitch, execEndMarkerReached]

/-! ### XFER (05_fabric.md, 07_sprigs.md) -/

@[simp] theorem addOp_tck (s : State) (c : Nat) (o : Op) : (addOp s c o).tck = s.tck := by simp [addOp]

@[simp] theorem dropOp_tck (s : State) (c tag : Nat) : (dropOp s c tag).tck = s.tck := by simp [dropOp]

@[simp] theorem countWallOut_tck (s : State) (h n : Nat) : (countWallOut s h n).tck = s.tck := by simp [countWallOut]

@[simp] theorem xferFault_tck (s : State) (c h : Nat) (b : XBlock) (status : Nat) :
    (xferFault s c h b status).tck = s.tck := by simp [xferFault]

@[simp] theorem startSlice_tck (s : State) (c h : Nat) (o : Op) (b : XBlock) (l : List (Nat × Option Nat)) :
    (startSlice s c h o b l).tck = s.tck := by simp [startSlice]

@[simp] theorem startRefused_tck (s : State) (c h : Nat) (o : Op) (b : XBlock) :
    (startRefused s c h o b).tck = s.tck := by
  unfold startRefused
  split <;> simp

@[simp] theorem startXfer_tck (s : State) (c h : Nat) (o : Op) : (startXfer s c h o).tck = s.tck := by
  unfold startXfer
  dsimp only
  split
  · simp
  · simp
  · simp
  · split <;> simp

@[simp] theorem execXfer_inForce (c : Cl) (p : Sp) (f : FmtA) (s : State) : InForceKept s (execXfer c p f s) := by
  unfold execXfer
  refine runInstr_inForce _ _ _ _ _ _ _ _ _ (storeReady_tck ..) fun e t => ?_
  dsimp only
  split <;> simp

@[simp] theorem startSheet_tck (s : State) (c h : Nat) (o : Op) (l : List (Nat × Nat)) :
    (startSheet s c h o l).tck = s.tck := by
  unfold startSheet
  split <;> simp

@[simp] theorem hbmLine_tck (c h ns tag : Nat) (reads : Bool) (s : State) (p : Nat × Nat × Nat × Option Nat) :
    (hbmLine c h ns tag reads s p).tck = s.tck := by
  unfold hbmLine
  dsimp only
  split
  · simp
  · split <;> simp

@[simp] theorem moveHbm_tck (s : State) (c tag ns n : Nat) : (moveHbm s c tag ns n).tck = s.tck := by
  unfold moveHbm
  dsimp only
  split <;> simp

@[simp] theorem execXferRemoteServe_inForce (c : Cl) (tag : Fin 64) (s : State) :
    InForceKept s (execXferRemoteServe c tag s) := by
  simp only [execXferRemoteServe, inForceKept_next]
  split
  · split
    · split
      · split
        · split
          · simp
          · split <;> simp
        · simp
      · rfl
    · rfl
  · rfl

@[simp] theorem settleXfer_tck (s : State) (h c : Nat) (o : Op) (bad : List Nat) :
    (settleXfer s h c o bad).1.tck = s.tck := by
  unfold settleXfer
  dsimp only
  split <;> [simp; rfl; rfl; rfl; (split <;> simp)]

@[simp] theorem execXferComplete_inForce (c : Cl) (tag : Fin 64) (bad : List Nat) (s : State) :
    InForceKept s (execXferComplete c tag bad s) := by
  unfold execXferComplete
  dsimp only
  split <;> simp

/-! ### Faults of the fabric (05_fabric.md) -/

@[simp] theorem retryPosition_tck (s : State) (m dir : Nat) : (retryPosition s m dir).1.tck = s.tck := by
  unfold retryPosition
  split
  · dsimp only
    split <;> simp
  · simp

@[simp] theorem degradeModule_tck (s : State) (m lane : Nat) : (degradeModule s m lane).tck = s.tck := by
  simp [degradeModule]

@[simp] theorem takeStitch_tck (s : State) (key : Nat) : (takeStitch s key).tck = s.tck := by simp [takeStitch]

@[simp] theorem repairStitch_tck (s : State) : (repairStitch s).tck = s.tck := by simp [repairStitch]

@[simp] theorem fabricCommands_inForce (s : State) :
    (∀ c multi, InForceKept s (execFlitEccError c multi s)) ∧ (∀ c, InForceKept s (execFlitAtClosedPort c s)) ∧
    (∀ m dir h retryOk, InForceKept s (execDieLinkCrcFail m dir h retryOk s)) ∧
    (∀ m lane errs, InForceKept s (execDieLinkLaneRepair m lane errs s)) ∧
    (∀ m, InForceKept s (execDieLinkLoss m s)) ∧ (∀ m, InForceKept s (execDieLinkRetrainDone m s)) ∧
    (∀ d group, InForceKept s (execStitchWireFault d group s)) := by
  simp [execFlitEccError, execFlitAtClosedPort, execDieLinkCrcFail, execDieLinkLaneRepair, execDieLinkLoss,
    execDieLinkRetrainDone, execStitchWireFault]

/-! ### Cluster faults and spares (17_faults.md) -/

@[simp] theorem makeUnavailable_tck (s : State) (c : Option Nat) : (makeUnavailable s c).tck = s.tck := by
  unfold makeUnavailable
  split <;> simp

@[simp] theorem mirrorLoss_tck (s : State) (c : Option Nat) : (mirrorLoss s c).tck = s.tck := by
  unfold mirrorLoss
  split <;> simp

@[simp] theorem holdRow_tck (s : State) (d row : Nat) : (holdRow s d row).tck = s.tck := by simp [holdRow]

@[simp] theorem declareFault_tck (s : State) (d row p : Nat) (lost : List UeLoc) (injected : Bool) :
    (declareFault s d row p lost injected).tck = s.tck := by simp [declareFault]

@[simp] theorem clusterFaultAt_tck (s : State) (c : Nat) (injected : Bool) :
    (clusterFaultAt s c injected).tck = s.tck := by simp [clusterFaultAt]

@[simp] theorem shiftHardware_tck (s : State) (d row f : Nat) : (shiftHardware s d row f).tck = s.tck := by
  simp [shiftHardware]

@[simp] theorem switchRow_tck (s : State) (key : Nat) : (switchRow s key).tck = s.tck := by simp [switchRow]

@[simp] theorem switchRemaps_tck (s : State) : (switchRemaps s).tck = s.tck := by simp [switchRemaps]

@[simp] theorem residueFault_tck (s : State) (c n : Nat) (injected : Bool) :
    (residueFault s c n injected).tck = s.tck := by simp [residueFault]

@[simp] theorem sprigFault_tck (s : State) (c p code : Nat) (injected : Bool) :
    (sprigFault s c p code injected).tck = s.tck := by simp [sprigFault]

@[simp] theorem patrolFault_tck (s : State) (l : UeLoc) : (patrolFault s l).tck = s.tck := by
  unfold patrolFault
  split <;> simp

@[simp] theorem execPatrolScrubStep_inForce (d : Die) (lines : Nat) (errs : List (UeLoc × Bool)) (s : State) :
    InForceKept s (execPatrolScrubStep d lines errs s) := by
  simp only [execPatrolScrubStep, inForceKept_next]
  split
  · rfl
  · simp [Tck.inForce]

@[simp] theorem unitHang_tck (s : State) (c : Nat) (u : UnitKind) (injected : Bool) :
    (unitHang s c u injected).tck = s.tck := by simp [unitHang]

@[simp] theorem loopConflict_tck (s : State) (loop srcType srcInst : Nat) :
    (loopConflict s loop srcType srcInst).tck = s.tck := by simp [loopConflict]

@[simp] theorem recoveryCommands_inForce (s : State) :
    (∀ d row p lost, InForceKept s (execClusterFault d row p lost s)) ∧
    (∀ d row, InForceKept s (execTakeoverCopyDone d row s)) ∧ (∀ c u, InForceKept s (execUnitHang c u s)) := by
  simp [execClusterFault, execTakeoverCopyDone, execUnitHang]

/-! ### The SU arrays (08_stochastic_units.md) -/

@[simp] theorem suStart_tck (s : State) (c : Nat) (u : UCmd) (status tag : Nat) (ok : Bool) :
    (suStart s c u status tag ok).tck = s.tck := by simp [suStart]

@[simp] theorem suIllegal_tck (s : State) (c : Nat) (u : UCmd) : (suIllegal s c u).tck = s.tck := by simp [suIllegal]

@[simp] theorem noiseFailure_tck (s : State) (c b : Nat) (subst : Bool) : (noiseFailure s c b subst).tck = s.tck := by
  simp [noiseFailure]

@[simp] theorem modRun_tck (s : State) (c : Nat) (boundary : Bool) (f : SuRun → SuRun) :
    (modRun s c boundary f).tck = s.tck := by simp [modRun]

@[simp] theorem sweepBegins_tck (s : State) (c : Nat) (e : SweepEnv) : (sweepBegins s c e).tck = s.tck := by
  simp [sweepBegins]

@[simp] theorem sweepEnds_tck (s : State) (c : Nat) (e : SweepEnv) (r : SuRun) : (sweepEnds s c e r).tck = s.tck := by
  simp [sweepEnds]

@[simp] theorem sweepStep_tck (s : State) (c : Nat) (r : SuRun) : (sweepStep s c r).tck = s.tck := by simp [sweepStep]

@[simp] theorem exportStep_tck (s : State) (c : Nat) (r : SuRun) : (exportStep s c r).tck = s.tck := by
  simp [exportStep]

@[simp] theorem suAdvance_tck (c t n : Nat) (s : State) : (suAdvance c t n s).tck = s.tck := by
  induction n generalizing s with
  | zero => rfl
  | succ n ih =>
    unfold suAdvance
    dsimp only
    split <;> simp [ih]

@[simp] theorem suDispatch_tck (s : State) (c op : Nat)
    (act : State → Cluster → SuCmd → Nat → Option (State × Nat × Nat))
    (h : ∀ t k m n x, act t k m n = some x → x.1.tck = t.tck) : (suDispatch s c op act).tck = s.tck := by
  unfold suDispatch
  split
  · rfl
  · dsimp only
    split
    · simp
    · split
      · simp
      · rename_i hx
        simpa using h _ _ _ _ _ hx

@[simp] theorem execApply_inForce (c : Cl) (s : State) : InForceKept s (execApply c s) := by
  unfold execApply
  dsimp only
  split <;> simp

@[simp] theorem wallDrop_tck (s : State) (c h n : Nat) : (wallDrop s c h n).tck = s.tck := by simp [wallDrop]

@[simp] theorem suTagWait_tck (s : State) (c : Nat) (u : UCmd) : (suTagWait s c u).tck = s.tck := by simp [suTagWait]

@[simp] theorem execExportCmd_inForce (c : Cl) (s : State) : InForceKept s (execExportCmd c s) := by
  simp only [execExportCmd, inForceKept_next]
  split
  · simp
  · refine congrArg Tck.inForce (suDispatch_tck _ _ _ _ fun t k m n x hx => ?_)
    split at hx <;> cases hx <;> simp

@[simp] theorem execExportArrival_inForce (c : Cl) (tag : Fin 64) (s : State) :
    InForceKept s (execExportArrival c tag s) := by
  simp only [execExportArrival, inForceKept_next]
  split
  · split
    · split
      · split <;> [(split <;> simp); simp]
      · rfl
    · rfl
  · rfl

@[simp] theorem execLoad_inForce (c : Cl) (s : State) : InForceKept s (execLoad c s) := by
  refine (inForceKept_next _ _).mpr (congrArg Tck.inForce (suDispatch_tck _ _ _ _ fun t k m n x hx => ?_))
  obtain ⟨r, -, rfl⟩ := Option.map_eq_some_iff.mp hx
  simp

@[simp] theorem execSuSwap_inForce (c : Cl) (s : State) : InForceKept s (execSuSwap c s) := by
  simp only [execSuSwap, inForceKept_next]
  split
  · simp
  · refine congrArg Tck.inForce (suDispatch_tck _ _ _ _ fun t k m n x hx => ?_)
    split at hx <;> rw [← Option.some.inj hx] <;> simp

@[simp] theorem swapEnds_tck (s : State) (c : Nat) (r : SuRun) (o : Op) : (swapEnds s c r o).tck = s.tck := by
  simp [swapEnds]

@[simp] theorem execSuNop_inForce (c : Cl) (s : State) : InForceKept s (execSuNop c s) := by
  unfold execSuNop
  split <;> simp

@[simp] theorem suDelay_tck (s : State) (c : Nat) (boundary : Bool) (n : Nat) :
    (suDelay s c boundary n).tck = s.tck := by simp [suDelay]

@[simp] theorem suFinish_tck (s : State) (c : Nat) (r : SuRun) : (suFinish s c r).1.tck = s.tck := by
  unfold suFinish
  dsimp only
  split
  · split
    · split <;> simp
    · simp
  · simp

@[simp] theorem execSuCommandComplete_inForce (c : Cl) (boundary : Bool) (s : State) :
    InForceKept s (execSuCommandComplete c boundary s) := by
  simp only [execSuCommandComplete, inForceKept_next]
  split
  · split
    · rfl
    · split <;> simp
  · rfl

@[simp] theorem trimAdvance_inForce (s : State) (c b : Nat) : (trimAdvance s c b).tck.inForce = s.tck.inForce := by
  simp [trimAdvance, Tck.inForce]

@[simp] theorem suCommands_inForce (s : State) :
    (∀ c, InForceKept s (execSweep c s)) ∧ (∀ c, InForceKept s (execRebuild c s)) ∧
    (∀ c, InForceKept s (execRead c s)) ∧ (∀ c b ones, InForceKept s (execNoiseTrimPass c b ones s)) := by
  simp [execSweep, execRebuild, execRead, execNoiseTrimPass]

/-! ### Annealing runs (09_annealing.md) -/

@[simp] theorem modAnn_tck (s : State) (h : Nat) (f : Anneal → Anneal) : (modAnn s h f).tck = s.tck := by
  simp [modAnn]

@[simp] theorem advanceArrays_tck (s : State) (h t : Nat) : (advanceArrays s h t).tck = s.tck := by
  simp [advanceArrays]

@[simp] theorem execCheckpoint_inForce (h : InstId) (s : State) : InForceKept s (execCheckpoint h s) := by
  unfold execCheckpoint
  dsimp only
  split <;> simp

@[simp] theorem execCheckpointResult_inForce (h : InstId) (s : State) : InForceKept s (execCheckpointResult h s) := by
  unfold execCheckpointResult
  dsimp only
  split <;> simp

@[simp] theorem writeRec_tck (h : Nat) (s : State) (r : TraceRec) : (writeRec h s r).tck = s.tck := by simp [writeRec]

@[simp] theorem annealCommit_tck (s : State) (h : Nat) : (annealCommit s h).tck = s.tck := by simp [annealCommit]

@[simp] theorem execSuaStagedWrite_inForce (h : InstId) (off : BitVec 12) (v : Word) (s : State) :
    InForceKept s (execSuaStagedWrite h off v s) := by
  unfold execSuaStagedWrite
  dsimp only
  split <;> simp

@[simp] theorem execBestClr_inForce (h : InstId) (s : State) : InForceKept s (execBestClr h s) := by
  simp [execBestClr]

@[simp] theorem decidePar_tck (s : State) (h : Nat) : (decidePar s h).tck = s.tck := by
  unfold decidePar
  split <;> simp

@[simp] theorem annealBoundary_tck (s : State) (h : Nat) : (annealBoundary s h).tck = s.tck := by
  simp [annealBoundary]

@[simp] theorem ghostGroup_tck (i : Inst) (g : XGroup) (w : Word64) (s : State) :
    (ghostGroup i g w s).tck = s.tck := by
  simp [ghostGroup]

@[simp] theorem applyFrame_tck (s : State) (h j tick : Nat) (unl : Bool) (gs : List (Nat × Word64)) :
    (applyFrame s h j tick unl gs).tck = s.tck := by
  unfold applyFrame
  split
  · rfl
  · refine (modAnn_tck ..).trans (tck_foldl _ _ _ fun t g => ?_)
    split <;> simp

@[simp] theorem execBoundaryFrameReceive_inForce (n : PortId) (offsetNs : Nat) (s : State) :
    InForceKept s (execBoundaryFrameReceive n offsetNs s) := by
  refine (inForceKept_next _ _).mpr (congrArg Tck.inForce (withPkt_tck _ _ _ _ fun t f h p => ?_))
  dsimp only
  split
  · simp
  · simp

@[simp] theorem openPeer_tck (h : Nat) (s : State) (j : Nat) : (openPeer h s j).tck = s.tck := by
  unfold openPeer
  dsimp only
  split <;> simp

@[simp] theorem openPeers_tck (s : State) (h : Nat) : (openPeers s h).tck = s.tck := by simp [openPeers]

@[simp] theorem checkPeers_tck (s : State) (h : Nat) : (checkPeers s h).tck = s.tck := by simp [checkPeers]

@[simp] theorem sendBoundaryFrames_tck (s : State) (h : Nat) : (sendBoundaryFrames s h).tck = s.tck := by
  simp [sendBoundaryFrames]

/-! ### Supervisors (17_faults.md) -/

@[simp] theorem takeOver_inForce (s : State) : (takeOver s).tck.inForce = s.tck.inForce := by
  simp [takeOver, Tck.inForce]

@[simp] theorem supFailed_inForce (s : State) (n : Nat) : (supFailed s n).tck.inForce = s.tck.inForce := by
  simp [supFailed]

@[simp] theorem suspectSup_inForce (s : State) (a b : Nat) : (suspectSup s a b).tck.inForce = s.tck.inForce := by
  simp [suspectSup]

@[simp] theorem applyForce_inForce (s : State) : (applyForce s).tck.inForce = s.tck.inForce := by simp [applyForce]

@[simp] theorem mirrorRecord_tck (s : State) : (mirrorRecord s).tck = s.tck := by simp [mirrorRecord]

@[simp] theorem supervisorCommands_inForce (s : State) :
    (∀ src dst term, InForceKept s (execHeartbeat src dst term s)) ∧
    (∀ src dst, InForceKept s (execHeartbeatMissed src dst s)) ∧ InForceKept s (execSupForce s) := by
  simp [execHeartbeat, execHeartbeatMissed, execSupForce]

/-! ### Voltage, clock grade and temperatures (17_faults.md, 18_power.md) -/

@[simp] theorem writeVenv_tck (d : Nat) (v : Word) (s : State) : (writeVenv d v s).tck = s.tck := by simp [writeVenv]

@[simp] theorem voltageStep_tck (short excess : Bool) (s : State) (d : Nat) :
    (voltageStep short excess s d).tck = s.tck := by simp [voltageStep]

@[simp] theorem voltageLoop_tck (i : BoundaryIn) (s : State) : (voltageLoop i s).tck = s.tck := by simp [voltageLoop]

@[simp] theorem applyTrimEnv_tck (s : State) : (applyTrimEnv s).tck = s.tck := by
  unfold applyTrimEnv
  split <;> simp

@[simp] theorem applyGenv_tck (s : State) : (applyGenv s).tck = s.tck := by
  unfold applyGenv
  split <;> simp

@[simp] theorem applyEqEnv_tck (s : State) (d : Nat) : (applyEqEnv s d).tck = s.tck := by
  unfold applyEqEnv
  split <;> simp

@[simp] theorem applyEnvelopes_tck (s : State) : (applyEnvelopes s).tck = s.tck := by simp [applyEnvelopes]

@[simp] theorem thermalSample_tck (temps : List Int) (s : State) : (thermalSample temps s).tck = s.tck := by
  simp [thermalSample]

@[simp] theorem coolantSample_tck (v : Int) (s : State) : (coolantSample v s).tck = s.tck := by simp [coolantSample]

@[simp] theorem overrideDrop_tck (injected : Bool) (s : State) : (overrideDrop injected s).tck = s.tck := by
  simp [overrideDrop]

@[simp] theorem gradeConflict_tck (s : State) : (gradeConflict s).tck = s.tck := by simp [gradeConflict]

@[simp] theorem gradeLoop_tck (before s : State) (newCrit : Bool) (inputW : Nat) :
    (gradeLoop before newCrit inputW s).tck = s.tck := by
  simp [gradeLoop]

@[simp] theorem avsCommands_inForce (s : State) :
    (∀ d v, InForceKept s (execAvsVenvWrite d v s)) ∧ InForceKept s (execThermalOverrideClear s) ∧
    InForceKept s (execGradeStepUp s) ∧ (∀ d eth lane want, InForceKept s (execLinkEqualisation d eth lane want s)) := by
  simp [execAvsVenvWrite, execThermalOverrideClear, execGradeStepUp, execLinkEqualisation]

/-! ### Plan images (16_plans.md) -/

@[simp] theorem installPlan_tck (s : State) (h : Nat) (l : Loaded) : (installPlan s h l).tck = s.tck := by
  simp only [installPlan, modInst_fields]
  refine (tck_foldl _ _ _ fun t c => ?_).trans (by simp)
  split <;> simp

@[simp] theorem compareCluster_tck (s : State) (h c : Nat) : (compareCluster s h c).1.tck = s.tck := by
  unfold compareCluster
  dsimp only
  split
  · simp
  · split
    · simp
    · split <;> simp

@[simp] theorem diverge_tck (s : State) (h c code srcType : Nat) : (diverge s h c code srcType).tck = s.tck := by
  simp [diverge]

/-- Comparing a hedge's clusters one after the other leaves the tick unit alone. -/
theorem foldl_compareCluster_tck (h : Nat) (i : Inst) (l : List Nat) (r : State × List Nat) :
    (l.foldl (fun (t : State × List Nat) loc =>
      let x := compareCluster t.1 h (globalId i loc)
      (x.1, if x.2 then t.2 ++ [globalId i loc] else t.2)) r).1.tck = r.1.tck := by
  induction l generalizing r with
  | nil => rfl
  | cons a l ih => simp [ih]

@[simp] theorem compareHedge_tck (s : State) (h : Nat) : (compareHedge s h).tck = s.tck := by
  have hr := foldl_compareCluster_tck h (instAt s h) (List.range ((instAt s h).w * (instAt s h).h)) (s, [])
  unfold compareHedge
  dsimp only at hr ⊢
  split
  · exact hr
  · split <;> split <;> split <;> simp [hr]

/-! ### Sensor ingest (14_sensors.md) -/

@[simp] theorem execSensorBind_inForce (r : RingId) (s : State) : InForceKept s (execSensorBind r s) := by
  unfold execSensorBind
  split <;> simp

@[simp] theorem awaitWriter_tck (s : State) (c : Nat) (d : Delivery) : (awaitWriter s c d).tck = s.tck := by
  simp [awaitWriter]

@[simp] theorem stageWrite_tck (s : State) (c va : Nat) (data : List Byte) (what : Arrival) :
    (stageWrite s c va data what).tck = s.tck := by simp [stageWrite]

@[simp] theorem stagePacket_tck (s : State) (c va : Nat) (data : List Byte) (what : Arrival) :
    (stagePacket s c va data what).tck = s.tck := by simp [stagePacket]

@[simp] theorem acceptFrames_tck (c ns n : Nat) (s : State) : (acceptFrames c ns n s).tck = s.tck := by
  induction n generalizing s with
  | zero => rfl
  | succ n ih =>
    unfold acceptFrames
    dsimp only
    split
    · rfl
    · split
      · rfl
      · simp [ih]

@[simp] theorem acceptReady_tck (s : State) (c ns : Nat) : (acceptReady s c ns).tck = s.tck := by simp [acceptReady]

@[simp] theorem closeFrame_tck (s : State) (c : Nat) (extra : BitVec 8) (ns : Nat) :
    (closeFrame s c extra ns).tck = s.tck := by
  unfold closeFrame
  dsimp only
  split <;> simp

@[simp] theorem openFrame_tck (s : State) (c : Nat) (no : Word) (total : Nat) (p : SensorPkt) :
    (openFrame s c no total p).tck = s.tck := by simp [openFrame]

@[simp] theorem addData_tck (s : State) (c off : Nat) (data : List Byte) (p : SensorPkt) :
    (addData s c off data p).tck = s.tck := by
  unfold addData
  dsimp only
  split <;> simp

@[simp] theorem takePacket_tck (s : State) (c : Nat) (p : SensorPkt) : (takePacket s c p).tck = s.tck := by
  unfold takePacket
  dsimp only
  split
  · simp
  · split <;> simp

@[simp] theorem execSensorPacketReceive_inForce (ch : Fin 16) (s : State) :
    InForceKept s (execSensorPacketReceive ch s) := by
  simp only [execSensorPacketReceive, inForceKept_next]
  split
  · rename_i he
    simp [takeFrame_tck he]
  · rfl

@[simp] theorem execSensorFrameTimeout_inForce (ch : Fin 16) (offsetNs : Word) (s : State) :
    InForceKept s (execSensorFrameTimeout ch offsetNs s) := by simp [execSensorFrameTimeout]

@[simp] theorem applyBind_tck (s : State) (c : Nat) : (applyBind s c).tck = s.tck := by
  unfold applyBind
  split <;> simp

@[simp] theorem unbindChannel_tck (s : State) (c : Nat) : (unbindChannel s c).tck = s.tck := by simp [unbindChannel]

@[simp] theorem flushHeaders_tck (s : State) (c : Nat) : (flushHeaders s c).tck = s.tck := by simp [flushHeaders]

@[simp] theorem publishChannel_tck (s : State) (c : Nat) : (publishChannel s c).tck = s.tck := by
  simp [publishChannel]

@[simp] theorem publishSensors_tck (s : State) : (publishSensors s).tck = s.tck := by simp [publishSensors]

@[simp] theorem modDelivery_tck (s : State) (id : Nat) (f : Delivery → Delivery) :
    (modDelivery s id f).tck = s.tck := by
  simp [modDelivery]

@[simp] theorem endDelivery_tck (s : State) (ns : Nat) (d : Delivery) : (endDelivery s ns d).tck = s.tck := by
  unfold endDelivery
  split <;> simp

@[simp] theorem endRelay_tck (s : State) (id : Nat) : (endRelay s id).tck = s.tck := by
  unfold endRelay
  split
  · simp
  · split <;> simp

@[simp] theorem moveDelivery_tck (s : State) (id cal stop left n ns : Nat) :
    (moveDelivery s id cal stop left n ns).tck = s.tck := by
  unfold moveDelivery
  split <;> simp

/-! ### The life of a hedge (04_instances.md) -/

@[simp] theorem stage_tck (s : State) (id r seq : Nat) (mgmt : Bool) (op : Staged) :
    (stage s id r seq mgmt op).tck = s.tck := by simp [stage]

@[simp] theorem refuse_tck (s : State) (r seq status result : Nat) : (refuse s r seq status result).tck = s.tck := by
  simp [refuse]

@[simp] theorem recordRefusal_tck (s : State) (a : Nat × Nat) : (recordRefusal s a).tck = s.tck := by
  simp [recordRefusal]

@[simp] theorem shapeDesc_tck (r t : Nat) (re : Bool) (s : State) : (shapeDesc r t re s).tck = s.tck := by
  unfold shapeDesc
  split
  · rfl
  · dsimp only
    generalize (if re = true then Staged.reshape _ else Staged.form _) = op
    split
    · simp
    · split <;> simp

@[simp] theorem execPlanLoad_inForce (r : RingId) (p : Plan) (s : State) : InForceKept s (execPlanLoad r p s) := by
  unfold execPlanLoad
  split <;> simp

@[simp] theorem dropImage_tck (s : State) (id : Nat) : (dropImage s id).tck = s.tck := by
  unfold dropImage
  split <;> simp

@[simp] theorem dropLoad_tck (s : State) (id r seq status : Nat) : (dropLoad s id r seq status).tck = s.tck := by
  simp [dropLoad]

@[simp] theorem execPlanLoadComplete_inForce (h : InstId) (s : State) : InForceKept s (execPlanLoadComplete h s) := by
  unfold execPlanLoadComplete
  dsimp only
  split <;> simp

@[simp] theorem execRun_inForce (r : RingId) (s : State) : InForceKept s (execRun r s) := by
  unfold execRun
  split <;> simp

@[simp] theorem execStop_inForce (r : RingId) (s : State) : InForceKept s (execStop r s) := by
  unfold execStop
  split <;> simp

@[simp] theorem takeClusters_tck (s : State) (id : Nat) : (takeClusters s id).tck = s.tck := by simp [takeClusters]

@[simp] theorem freeCluster_tck (s : State) (c : Nat) : (freeCluster s c).tck = s.tck := by simp [freeCluster]

@[simp] theorem dormantCluster_tck (s : State) (c : Nat) : (dormantCluster s c).tck = s.tck := by
  simp [dormantCluster]

@[simp] theorem leaveRunning_tck (before : IState) (s : State) (id : Nat) :
    (leaveRunning before s id).tck = s.tck := by
  simp [leaveRunning]

@[simp] theorem applyForm_tck (s : State) (id : Nat) (q : Shape) : (applyForm s id q).tck = s.tck := by
  simp [applyForm]

/-- With bases and a length that do not compute: those of the slices are numerals that the kernel would unfold. -/
theorem foldl_memClear_tck (base : Nat → Nat) (n : Nat) (l : List Nat) (s : State) :
    (l.foldl (fun t k => memClear t (base k) n) s).tck = s.tck := by simp

@[simp] theorem clearSlices_tck (s : State) (m : BitVec 256) : (clearSlices s m).tck = s.tck :=
  foldl_memClear_tck sliceBase unit2M _ s

@[simp] theorem beginTopiary_tck (s : State) (id : Nat) (q : Shape) (r seq : Nat) :
    (beginTopiary s id q r seq).tck = s.tck := by simp [beginTopiary]

@[simp] theorem reshapeCalendar_tck (id : Nat) (s : State) (c : Nat) : (reshapeCalendar id s c).tck = s.tck := by
  simp [reshapeCalendar]

@[simp] theorem applyShape_tck (s : State) (id : Nat) (q : Shape) : (applyShape s id q).tck = s.tck := by
  simp [applyShape]

@[simp] theorem endTopiary_tck (s : State) (id : Nat) : (endTopiary s id).tck = s.tck := by
  unfold endTopiary
  dsimp only
  split
  · rfl
  · split <;> split <;> simp

@[simp] theorem applyOp_tck (s : State) (o : StagedOp) : (applyOp s o).tck = s.tck := by
  unfold applyOp
  dsimp only
  split <;> simp

@[simp] theorem applyStaged_tck (s : State) : (applyStaged s).tck = s.tck := by simp [applyStaged]

@[simp] theorem dropTransfer_tck (t : State) (x : Transfer) : (dropTransfer t x).tck = t.tck := by simp [dropTransfer]

@[simp] theorem sinkDelivery_tck (t : State) (d : Delivery) : (sinkDelivery t d).tck = t.tck := by simp [sinkDelivery]

@[simp] theorem dropTransfers_tck (s : State) (id : Nat) : (dropTransfers s id).tck = s.tck := by simp [dropTransfers]

@[simp] theorem dropStaged_tck (s : State) (id : Nat) : (dropStaged s id).tck = s.tck := by simp [dropStaged]

@[simp] theorem dropQueued_tck (s : State) (id : Nat) : (dropQueued s id).tck = s.tck := by simp [dropQueued]

@[simp] theorem startReset_tck (s : State) (id : Nat) (by_ : Option (Nat × Nat)) :
    (startReset s id by_).tck = s.tck := by simp [startReset]

@[simp] theorem execInstanceReset_inForce (r : RingId) (s : State) : InForceKept s (execInstanceReset r s) := by
  unfold execInstanceReset
  split <;> simp

@[simp] theorem resetOnce_tck (s : State) (id : Nat) : (resetOnce s id).tck = s.tck := by simp [resetOnce]

@[simp] theorem resetB1_tck (s : State) (id : Nat) : (resetB1 s id).tck = s.tck := by
  unfold resetB1
  split <;> simp

@[simp] theorem resetB2_tck (s : State) (id : Nat) : (resetB2 s id).tck = s.tck := by simp [resetB2]

@[simp] theorem resetBoundary_tck (s : State) (id : Nat) : (resetBoundary s id).tck = s.tck := by simp [resetBoundary]

@[simp] theorem destroyKeys_tck (s : State) (id : Nat) : (destroyKeys s id).tck = s.tck := by simp [destroyKeys]

@[simp] theorem emptyRings_tck (s : State) (id : Nat) : (emptyRings s id).tck = s.tck := by simp [emptyRings]

@[simp] theorem reportPeer_tck (h : Nat) (s : State) (a : Nat × Nat) : (reportPeer h s a).tck = s.tck := by
  simp [reportPeer]

@[simp] theorem execResetSequenceEnd_inForce (h : InstId) (s : State) : InForceKept s (execResetSequenceEnd h s) := by
  simp only [execResetSequenceEnd, inForceKept_next]
  split
  · split <;> simp
  · rfl

@[simp] theorem hedgeCommands_inForce (s : State) :
    (∀ r, InForceKept s (execHedgeForm r s)) ∧ (∀ r, InForceKept s (execHedgeReshape r s)) ∧
    (∀ h, InForceKept s (execVfFlr h s)) ∧ InForceKept s (execPfFlr s) := by
  simp [execHedgeForm, execHedgeReshape, execVfFlr, execPfFlr]

/-! ### Power and saves (18_power.md) -/

@[simp] theorem saveStop_tck (s : State) (id : Nat) : (saveStop s id).tck = s.tck := by simp [saveStop]

@[simp] theorem stopStartup_tck (s : State) : (stopStartup s).tck = s.tck := by simp [stopStartup]

@[simp] theorem trigger_tck (s : State) (cause : Nat) : (trigger s cause).tck = s.tck := by simp [trigger]

@[simp] theorem startSave_tck (s : State) (cause : Nat) : (startSave s cause).tck = s.tck := by simp [startSave]

@[simp] theorem execSaveComplete_inForce (durationUs : Word) (s : State) :
    InForceKept s (execSaveComplete durationUs s) := by
  unfold execSaveComplete
  split <;> simp

@[simp] theorem classify_tck (s : State) (b : BankIn) : (classify s b).tck = s.tck := by simp [classify]

@[simp] theorem redrive_tck (s : State) (n : Nat) : (redrive s n).tck = s.tck := by
  unfold redrive
  split <;> simp

@[simp] theorem keepLoad_tck (h : Nat) (s : State) : (keepLoad h s).tck = s.tck := by
  unfold keepLoad
  dsimp only
  split <;> simp

@[simp] theorem powerCommands_inForce (s : State) :
    (∀ cause, InForceKept s (execSaveTrigger cause s)) ∧ InForceKept s (execPwrShutdown s) ∧
    InForceKept s (execSavePowerDown s) ∧ InForceKept s (execSaveBankExhausted s) ∧
    (∀ mv, InForceKept s (execSagWarn mv s)) ∧ (∀ mv, InForceKept s (execSagWarnClear mv s)) ∧
    InForceKept s (execLeakDetected s) ∧ InForceKept s (execShdnReq s) ∧ InForceKept s (execCoolantTrip s) ∧
    (∀ b, InForceKept s (execHoldBankClassify b s)) ∧ (∀ b, InForceKept s (execHoldChargeRetry b s)) ∧
    (∀ cls c esr, InForceKept s (execHoldBankClassChange cls c esr s)) ∧ InForceKept s (execHoldBankOvercurrent s) ∧
    (∀ line st, InForceKept s (execFieldLineChange line st s)) ∧
    (∀ line, InForceKept s (execFieldDriverRetry line s)) ∧ (∀ h, InForceKept s (execKeepLoad h s)) := by
  simp [execSaveTrigger, execPwrShutdown, execSavePowerDown, execSaveBankExhausted, execSagWarn, execSagWarnClear,
    execLeakDetected, execShdnReq, execCoolantTrip, execHoldBankClassify, execHoldChargeRetry,
    execHoldBankClassChange, execHoldBankOvercurrent, execFieldLineChange, execFieldDriverRetry, execKeepLoad]

/-! ### The phases of a tick (02_tick.md) -/

@[simp] theorem execWorkStart_inForce (s : State) : InForceKept s (execWorkStart s) := by
  unfold execWorkStart
  split <;> simp [Tck.inForce]

@[simp] theorem missMarker_tck (s : State) (h : Nat) : (missMarker s h).tck = s.tck := by simp [missMarker]

@[simp] theorem publishCnts_tck (s : State) (pg : Nat) (l : List Nat) : (publishCnts s pg l).tck = s.tck := by
  simp [publishCnts]

@[simp] theorem publishCluster_tck (s : State) (c : Nat) : (publishCluster s c).tck = s.tck := by
  simp [publishCluster]

@[simp] theorem finishHedge_tck (s : State) (h : Nat) : (finishHedge s h).tck = s.tck := by simp [finishHedge]

@[simp] theorem execCoppiceStart_inForce (s : State) : InForceKept s (execCoppiceStart s) := by
  simp only [execCoppiceStart, inForceKept_next]
  split
  · rw [coppiceCorrection_inForce]
    simp [Tck.inForce]
  · rfl

@[simp] theorem execCommitStart_inForce (s : State) : InForceKept s (execCommitStart s) := by
  simp only [execCommitStart, inForceKept_next]
  split
  · split <;> simp [endCorrection, Tck.inForce]
  · rfl

@[simp] theorem commitHedge_tck (s : State) (h : Nat) : (commitHedge s h).tck = s.tck := by simp [commitHedge]

@[simp] theorem lateSends_tck (s : State) (h : Nat) : (lateSends s h).tck = s.tck := by simp [lateSends]

@[simp] theorem execCommitPoint_inForce (h : InstId) (s : State) : InForceKept s (execCommitPoint h s) := by
  simp [execCommitPoint]

/-! ### Random sources (10_random.md) -/

@[simp] theorem drawIllegal_tck (s : State) (c : Nat) (u : UCmd) (st : Bytes) :
    (drawIllegal s c u st).tck = s.tck := by
  simp [drawIllegal]

@[simp] theorem drawSees_tck (s : State) (c : Nat) (u : UCmd) : (drawSees s c u).1.tck = s.tck := by simp [drawSees]

@[simp] theorem execDraw_inForce (c : Cl) (s : State) : InForceKept s (execDraw c s) := by
  unfold execDraw
  split <;> simp

@[simp] theorem execDrawNop_inForce (c : Cl) (s : State) : InForceKept s (execDrawNop c s) := by
  unfold execDrawNop
  split <;> simp

@[simp] theorem execDrawComplete_inForce (c : Cl) (s : State) : InForceKept s (execDrawComplete c s) := by
  unfold execDrawComplete
  dsimp only
  split <;> simp

@[simp] theorem degradeStep_tck (s : State) : (degradeStep s).tck = s.tck := by simp [degradeStep]

@[simp] theorem classAFail_tck (s : State) (n : Nat) (rct apt injected : Bool) :
    (classAFail s n rct apt injected).tck = s.tck := by simp [classAFail]

@[simp] theorem classARetry_tck (mask : BitVec 4) (s : State) : (classARetry mask s).tck = s.tck := by
  simp [classARetry]

@[simp] theorem loadSeeds_tck (late : List Nat) (s : State) : (loadSeeds late s).tck = s.tck := by simp [loadSeeds]

@[simp] theorem fillClassA_tck (s : State) : (fillClassA s).tck = s.tck := by simp [fillClassA]

@[simp] theorem entropyCommands_inForce (s : State) :
    (∀ n run window, InForceKept s (execClassAFail n run window s)) ∧
    (∀ mask, InForceKept s (execClassARetry mask s)) ∧
    (∀ n samples, InForceKept s (execClassAStartupPass n samples s)) := by
  simp [execClassAFail, execClassARetry, execClassAStartupPass]

/-! ### Firmware and flash (19_startup.md) -/

@[simp] theorem fwCommit_tck (s : State) : (fwCommit s).tck = s.tck := by simp [fwCommit]

@[simp] theorem fwActivate_tck (s : State) : (fwActivate s).tck = s.tck := by simp [fwActivate]

@[simp] theorem flashStart_tck (op : BitVec 2) (s : State) : (flashStart op s).tck = s.tck := by simp [flashStart]

@[simp] theorem execFlashOpDone_inForce (s : State) : InForceKept s (execFlashOpDone s) := by
  unfold execFlashOpDone
  split <;> simp

@[simp] theorem execFlashWearStep_inForce (finished : Bool) (s : State) :
    InForceKept s (execFlashWearStep finished s) := by
  unfold execFlashWearStep
  split <;> simp [Tck.inForce]

@[simp] theorem firmwareCommands_inForce (s : State) :
    InForceKept s (execFwCommit s) ∧ InForceKept s (execFwActivate s) ∧ InForceKept s (execFlashRead s) ∧
    InForceKept s (execFlashProgram s) ∧ InForceKept s (execFlashErase s) ∧
    (∀ q via, InForceKept s (execSpdmRequest q via s)) ∧ (∀ q addr, InForceKept s (execPldmRequest q addr s)) := by
  simp [execFwCommit, execFwActivate, execFlashRead, execFlashProgram, execFlashErase, execSpdmRequest, execPldmRequest]

/-! ### Register accesses (20_registers.md) -/

@[simp] theorem writeInject_tck (s : State) (pg v : Nat) (go : Bool) : (writeInject s pg v go).tck = s.tck := by
  simp [writeInject]

@[simp] theorem writeHeader_tck (s : State) (pg off nv w1 wo : Nat) :
    (writeHeader s pg off nv w1 wo).tck = s.tck := by
  unfold writeHeader
  split <;> simp

@[simp] theorem writeGlb_tck (s : State) (off nv wo : Nat) : (writeGlb s off nv wo).tck = s.tck := by simp [writeGlb]

@[simp] theorem writeTck_inForce (s : State) (off nv wo : Nat) :
    (writeTck s off nv wo).tck.inForce = s.tck.inForce := by
  unfold writeTck
  split
  · rfl
  · rfl
  · dsimp only
    split <;> split <;> simp
  · rfl
  · rfl
  · rfl

@[simp] theorem driveTrigs_tck (s : State) : (driveTrigs s).tck = s.tck := by simp [driveTrigs]

@[simp] theorem writePwr_tck (s : State) (off nv wo : Nat) : (writePwr s off nv wo).tck = s.tck := by
  unfold writePwr
  split <;> simp

@[simp] theorem writeThm_tck (s : State) (off nv : Nat) : (writeThm s off nv).tck = s.tck := by
  unfold writeThm
  split <;> simp

@[simp] theorem writeEnt_tck (s : State) (off nv wo : Nat) : (writeEnt s off nv wo).tck = s.tck := by
  unfold writeEnt
  split <;> simp

@[simp] theorem writeCfg_tck (s : State) (off nv w1 wo : Nat) : (writeCfg s off nv w1 wo).tck = s.tck := by
  unfold writeCfg
  split <;> simp

@[simp] theorem writeErr_tck (s : State) (off nv : Nat) : (writeErr s off nv).tck = s.tck := by simp [writeErr]

@[simp] theorem writeTel_tck (s : State) (off nv : Nat) : (writeTel s off nv).tck = s.tck := by simp [writeTel]

@[simp] theorem writeCalCtl_tck (s : State) (off nv : Nat) : (writeCalCtl s off nv).tck = s.tck := by
  unfold writeCalCtl
  split <;> simp

@[simp] theorem writeCal_tck (s : State) (c off nv wo : Nat) : (writeCal s c off nv wo).tck = s.tck := by
  simp [writeCal]

@[simp] theorem writeAvsDev_tck (s : State) (off nv : Nat) : (writeAvsDev s off nv).tck = s.tck := by
  unfold writeAvsDev
  split <;> simp

@[simp] theorem writeAvs_tck (s : State) (d off nv : Nat) : (writeAvs s d off nv).tck = s.tck := by
  unfold writeAvs
  split <;> simp

@[simp] theorem writeHbcI_tck (s : State) (id off nv w1 : Nat) : (writeHbcI s id off nv w1).tck = s.tck := by
  simp [writeHbcI]

@[simp] theorem writeKtp_tck (s : State) (n off nv wo : Nat) : (writeKtp s n off nv wo).tck = s.tck := by
  simp [writeKtp]

@[simp] theorem writeRingCfg_tck (s : State) (r nv : Nat) : (writeRingCfg s r nv).tck = s.tck := by
  simp [writeRingCfg]

@[simp] theorem writeRng_tck (s : State) (r off nv wo : Nat) : (writeRng s r off nv wo).tck = s.tck := by
  unfold writeRng
  split <;> simp

@[simp] theorem writePci_tck (s : State) (n off nv wo : Nat) : (writePci s n off nv wo).tck = s.tck := by
  simp [writePci]

@[simp] theorem writeEth_tck (s : State) (n off nv : Nat) : (writeEth s n off nv).tck = s.tck := by
  unfold writeEth
  split <;> simp

@[simp] theorem writeAnn_tck (s : State) (h off nv wo : Nat) : (writeAnn s h off nv wo).tck = s.tck := by
  unfold writeAnn
  split
  · simp
  · simp
  · simp
  · dsimp only
    split <;> simp

@[simp] theorem writeSua_tck (s : State) (c off nv w1 wo : Nat) : (writeSua s c off nv w1 wo).tck = s.tck := by
  unfold writeSua
  split
  · simp
  · split <;> simp

@[simp] theorem writeBody_inForce (s : State) (p : Page) (off nv w1 wo : Nat) :
    (writeBody s p off nv w1 wo).tck.inForce = s.tck.inForce := by
  unfold writeBody
  split <;> simp

@[simp] theorem writePair_inForce (s : State) (p : Page) (low : Nat) (v : Word64) :
    (writePair s p low v).tck.inForce = s.tck.inForce := by
  unfold writePair
  split
  · split <;> rfl
  · simp
  · simp
  · simp
  · split <;> simp
  · rfl

@[simp] theorem writeWord_inForce (s : State) (f pg off : Nat) (v : Word) (mask : Nat) :
    (writeWord s f pg off v mask).tck.inForce = s.tck.inForce := by
  unfold writeWord
  dsimp only
  split <;> simp

@[simp] theorem accessWrite_inForce (s : State) (f addr : Nat) (v : Word) :
    (accessWrite s f addr v).tck.inForce = s.tck.inForce := by
  unfold accessWrite
  split
  · rfl
  · split
    · simp
    · split
      · rfl
      · split
        · simp
        · split
          · simp
          · split <;> simp

@[simp] theorem clearRc_tck (s : State) (p : Page) (off : Nat) : (clearRc s p off).tck = s.tck := by
  unfold clearRc
  split <;> [simp; simp; simp; simp; simp; simp; simp; simp; simp; (split <;> simp); rfl]

@[simp] theorem readReg_tck (s : State) (f pg off : Nat) : (readReg s f pg off).2.tck = s.tck := by
  unfold readReg
  dsimp only
  split
  · simp
  · split <;> simp

@[simp] theorem accessRead_tck (s : State) (f addr : Nat) : (accessRead s f addr).2.tck = s.tck := by
  unfold accessRead
  split
  · simp
  · split <;> simp

@[simp] theorem sizeError_tck (s : State) (f addr : Nat) : (sizeError s f addr).tck = s.tck := by
  unfold sizeError
  split <;> simp

@[simp] theorem dropRequest_tck (s : State) : (dropRequest s).tck = s.tck := by simp [dropRequest]

@[simp] theorem answerRead_tck (s : State) (f addr : Nat) (vs : List Word) :
    (answerRead s f addr vs).tck = s.tck := by
  simp [answerRead]

@[simp] theorem sendReadCpl_tck (s : State) (f addr : Nat) (vs : List Word) :
    (sendReadCpl s f addr vs).tck = s.tck := by
  simp [sendReadCpl]

@[simp] theorem readRequest_tck (s : State) (f addr size : Nat) : (readRequest s f addr size).tck = s.tck := by
  simp [readRequest]

@[simp] theorem writeRequest_inForce (s : State) (f addr : Nat) (v : Word64) (size : Nat) :
    (writeRequest s f addr v size).tck.inForce = s.tck.inForce := by simp [writeRequest]

@[simp] theorem registerCommands_inForce (s : State) :
    (∀ f addr size, InForceKept s (execRegisterRead f addr size s)) ∧
    (∀ f addr v size, InForceKept s (execRegisterWrite f addr v size s)) ∧
    (∀ f addr, InForceKept s (execRcFieldRead f addr s)) ∧ (∀ addr on, InForceKept s (execPgCtlFreeze addr on s)) ∧
    (∀ addr, InForceKept s (execPgCtlClear addr s)) ∧ (∀ addr on, InForceKept s (execPageLock addr on s)) ∧
    (∀ addr v, InForceKept s (execErrorInject addr v s)) := by
  simp [execRegisterRead, execRegisterWrite, execRcFieldRead, execPgCtlFreeze, execPgCtlClear, execPageLock,
    execErrorInject]

/-! ### Calendar slots (03_hedges.md) -/

@[simp] theorem edgeStall_tck (h t : Nat) (s : State) (w : Waiting) : (edgeStall h t s w).tck = s.tck := by
  simp [edgeStall]

@[simp] theorem crossEdge_tck (h t : Nat) (s : State) (w : Waiting) : (crossEdge h t s w).tck = s.tck := by
  simp [crossEdge]

@[simp] theorem dieSlot_tck (s : State) (cal n cap : Nat) : (dieSlot s cal n cap).tck = s.tck := by simp [dieSlot]

@[simp] theorem countSpine_tck (s : State) (cal id va : Nat) : (countSpine s cal id va).tck = s.tck := by
  simp [countSpine]

@[simp] theorem countMove_tck (s : State) (cal id k : Nat) : (countMove s cal id k).tck = s.tck := by
  unfold countMove
  split <;> simp

@[simp] theorem settleNet_tck (s : State) (h t : Nat) : (settleNet s h t).tck = s.tck := by simp [settleNet]

@[simp] theorem moveTransfer_tck (s : State) (cal m id stop left n : Nat) :
    (moveTransfer s cal m id stop left n).tck = s.tck := by
  unfold moveTransfer
  split
  · simp
  · split <;> simp

@[simp] theorem moveArrival_tck (s : State) (cal m id stop left n : Nat) :
    (moveArrival s cal m id stop left n).tck = s.tck := by
  unfold moveArrival
  split <;> simp

@[simp] theorem moveItem_tck (s : State) (cal m n : Nat) (it : CalItem) : (moveItem s cal m n it).tck = s.tck := by
  unfold moveItem
  split <;> simp

@[simp] theorem countBorrow_tck (s : State) (cal b : Nat) : (countBorrow s cal b).tck = s.tck := by simp [countBorrow]

@[simp] theorem issueItem_tck (s : State) (cal m cap : Nat) (it : CalItem) (borrowed : Bool) :
    (issueItem s cal m cap it borrowed).tck = s.tck := by simp [issueItem]

@[simp] theorem transferSlot_tck (s : State) (cal m cap : Nat) : (transferSlot s cal m cap).tck = s.tck := by
  unfold transferSlot
  split <;> simp

@[simp] theorem runSlot_tck (s : State) (cal m : Nat) : (runSlot s cal m).tck = s.tck := by simp [runSlot]

@[simp] theorem execCalendarSlotStart_inForce (cal : CalId) (s : State) :
    InForceKept s (execCalendarSlotStart cal s) := by simp [execCalendarSlotStart]

/-! ### The boundary (02_tick.md) -/

@[simp] theorem revertHedge_tck (s : State) (h : Nat) : (revertHedge s h).tck = s.tck := by simp [revertHedge]

@[simp] theorem holdHedge_tck (s : State) (h cause : Nat) : (holdHedge s h cause).tck = s.tck := by simp [holdHedge]

@[simp] theorem endSlot_tck (s : State) (h : Nat) : (endSlot s h).tck = s.tck := by
  unfold endSlot
  dsimp only
  split <;> simp

@[simp] theorem beginSlot_tck (s : State) (h : Nat) : (beginSlot s h).tck = s.tck := by simp [beginSlot]

@[simp] theorem clearTick_tck (s : State) : (clearTick s).tck = s.tck := by simp [clearTick]

@[simp] theorem freshAnneals_tck (s : State) : (freshAnneals s).tck = s.tck := by simp [freshAnneals]

@[simp] theorem publishBorrow_tck (s : State) : (publishBorrow s).tck = s.tck := by simp [publishBorrow]

@[simp] theorem clearCounters_tck (s : State) : (clearCounters s).tck = s.tck := by simp [clearCounters]

@[simp] theorem sendDueMsix_tck (s : State) : (sendDueMsix s).tck = s.tck := by simp [sendDueMsix]

@[simp] theorem preemptTasks_tck (s : State) : (preemptTasks s).tck = s.tck := by simp [preemptTasks]

@[simp] theorem sampleModule_tck (before s : State) (i : BoundaryIn) :
    (sampleModule before i s).tck = s.tck := by
  simp [sampleModule]

@[simp] theorem openTick_tck (i : BoundaryIn) (s : State) : (openTick i s).tck = s.tck := by simp [openTick]

/-! ### Injected faults (17_faults.md) -/

@[simp] theorem answered_inForce (r : Result) (s : State) (h : InForceKept s r) :
    (answered r s).tck.inForce = s.tck.inForce := by
  unfold answered
  split
  · exact h _ rfl
  · rfl

@[simp] theorem markInjected_tck (seq : Word) (s : State) : (markInjected seq s).tck = s.tck := by simp [markInjected]

@[simp] theorem injectSup_inForce (s : State) (n code : Nat) : (injectSup s n code).tck.inForce = s.tck.inForce := by
  simp [injectSup]

@[simp] theorem injectPwr_inForce (s : State) (code target : Nat) :
    (injectPwr s code target).tck.inForce = s.tck.inForce := by simp [injectPwr]

@[simp] theorem injectThm_tck (s : State) (code target : Nat) : (injectThm s code target).tck = s.tck := by
  simp [injectThm]

@[simp] theorem injectPci_tck (s : State) (n code : Nat) : (injectPci s n code).tck = s.tck := by simp [injectPci]

@[simp] theorem injectHbm_tck (s : State) (d code target : Nat) : (injectHbm s d code target).tck = s.tck := by
  simp [injectHbm]

@[simp] theorem injectCrc_inForce (s : State) (m : Nat) : (injectCrc s m).tck.inForce = s.tck.inForce := by
  unfold injectCrc
  dsimp only
  refine answered_inForce _ _ fun t ht => ?_
  have hkept : InForceKept (burn s 1) (.next t) := ht ▸ by simp
  simpa using hkept

@[simp] theorem injectD2d_inForce (s : State) (m code target : Nat) :
    (injectD2d s m code target).tck.inForce = s.tck.inForce := by simp [injectD2d]

@[simp] theorem injectXbr_inForce (s : State) (k code target : Nat) :
    (injectXbr s k code target).tck.inForce = s.tck.inForce := by simp [injectXbr]

@[simp] theorem injectAvs_tck (s : State) (d code : Nat) : (injectAvs s d code).tck = s.tck := by simp [injectAvs]

@[simp] theorem injectClu_inForce (s : State) (c code : Nat) : (injectClu s c code).tck.inForce = s.tck.inForce := by
  simp [injectClu]

@[simp] theorem injectMe_tck (s : State) (c code target : Nat) : (injectMe s c code target).tck = s.tck := by
  simp [injectMe]

@[simp] theorem injectSprig_tck (s : State) (c code target : Nat) : (injectSprig s c code target).tck = s.tck := by
  simp [injectSprig]

@[simp] theorem injectSu_tck (s : State) (c code target : Nat) : (injectSu s c code target).tck = s.tck := by
  simp [injectSu]

@[simp] theorem injectClassA_tck (s : State) (n : Nat) : (injectClassA s n).tck = s.tck := by simp [injectClassA]

@[simp] theorem injectPage_inForce (s : State) (p : Page) (code target : Nat) :
    (injectPage s p code target).tck.inForce = s.tck.inForce := by
  unfold injectPage
  split <;> simp

@[simp] theorem execErrorInjectFire_inForce (addr : BitVec 28) (s : State) :
    InForceKept s (execErrorInjectFire addr s) := by simp [execErrorInjectFire]

/-! ### The matrix engine (06_matrix.md) -/

@[simp] theorem meDispatch_tck (s : State) (cl : Nat) (u : UCmd) (act : MeCmd → Bytes → FMap LAcc → MeOut → MeOut) :
    (meDispatch s cl u act).tck = s.tck := by simp [meDispatch]

@[simp] theorem execMeMatmul_inForce (c : Cl) (s : State) : InForceKept s (execMeMatmul c s) := by
  unfold execMeMatmul
  split <;> simp

@[simp] theorem execLaccRead_inForce (c : Cl) (s : State) : InForceKept s (execLaccRead c s) := by
  unfold execLaccRead
  split <;> simp

@[simp] theorem execLaccClear_inForce (c : Cl) (s : State) : InForceKept s (execLaccClear c s) := by
  unfold execLaccClear
  split <;> simp

@[simp] theorem execPost_inForce (c : Cl) (s : State) : InForceKept s (execPost c s) := by
  unfold execPost
  split <;> simp

@[simp] theorem execMeNop_inForce (c : Cl) (s : State) : InForceKept s (execMeNop c s) := by
  simp only [execMeNop, inForceKept_next]
  split
  · split <;> simp
  · rfl

@[simp] theorem execMeCommandComplete_inForce (c : Cl) (s : State) : InForceKept s (execMeCommandComplete c s) := by
  unfold execMeCommandComplete
  dsimp only
  split <;> simp

/-! ### Reset and start-up (19_startup.md) -/

@[simp] theorem reportInterrupted_tck (s : State) : (reportInterrupted s).tck = s.tck := by simp [reportInterrupted]

@[simp] theorem fixT0_tck (s : State) : (fixT0 s).tck = s.tck := by simp [fixT0]

@[simp] theorem showInput_tck (s : State) : (showInput s).tck = s.tck := by simp [showInput]

@[simp] theorem execPerstDeassertion_inForce (s : State) : InForceKept s (execPerstDeassertion s) := by
  simp [execPerstDeassertion]

@[simp] theorem stageMemory_tck (i : StageIn) (s : State) : (stageMemory i s).tck = s.tck := by simp [stageMemory]

@[simp] theorem stageLinks_tck (i : StageIn) (s : State) : (stageLinks i s).tck = s.tck := by simp [stageLinks]

@[simp] theorem mapRow_tck (i : StageIn) (s : State) (key : Nat) : (mapRow i s key).tck = s.tck := by simp [mapRow]

@[simp] theorem stageSelftest_tck (i : StageIn) (s : State) : (stageSelftest i s).tck = s.tck := by
  simp [stageSelftest]

@[simp] theorem stageEntropy_tck (i : StageIn) (s : State) : (stageEntropy i s).tck = s.tck := by simp [stageEntropy]

@[simp] theorem restoreInst_tck (m : Bytes) (s : State) (id : Nat) : (restoreInst m s id).tck = s.tck := by
  simp [restoreInst]

@[simp] theorem restoreTables_tck (m : Bytes) (s : State) : (restoreTables m s).tck = s.tck := by simp [restoreTables]

@[simp] theorem restoreLog_tck (l : List ErrEntry) (s : State) : (restoreLog l s).tck = s.tck := by simp [restoreLog]

@[simp] theorem addSaved_tck (m : Bytes) (off pg n : Nat) (s : State) : (addSaved m off pg n s).tck = s.tck := by
  simp [addSaved]

@[simp] theorem restoreCounters_tck (m : Bytes) (s : State) : (restoreCounters m s).tck = s.tck := by
  simp [restoreCounters]

@[simp] theorem stageReady_inForce (i : StageIn) (s : State) : (stageReady i s).tck.inForce = s.tck.inForce := by
  simp [stageReady]

/-! ### Telemetry (20_registers.md) -/

@[simp] theorem telPublish_tck (t : TelIn) (s : State) : (telPublish t s).tck = s.tck := by simp [telPublish]

@[simp] theorem telBegin_tck (s : State) : (telBegin s).tck = s.tck := by simp [telBegin]

@[simp] theorem execTelemetrySnapshot_inForce (t : TelIn) (finished : Bool) (s : State) :
    InForceKept s (execTelemetrySnapshot t finished s) := by
  unfold execTelemetrySnapshot
  split <;> simp [Tck.inForce]

@[simp] theorem applyBoundary_inForce (before s : State) : (applyBoundary before s).tck.inForce = s.tck.inForce := by
  simp [applyBoundary]

/-! ### What changes the settings in force keeps them legal -/

theorem TickInv.of_inForce {s t : State} (hs : TickInv s) (h : t.tck.inForce = s.tck.inForce) : TickInv t := by
  simp only [Tck.inForce, Prod.mk.injEq] at h
  obtain ⟨hp, hsrc, hslew, -⟩ := h
  simpa only [TickInv, hp, hsrc, hslew] using hs

theorem tickInv_decidePeriod {s : State} (hs : TickInv s) (runB : Bool) : TickInv (decidePeriod runB s) := by
  unfold decidePeriod
  split
  · exact hs
  · obtain ⟨hlo, hhi, hsrc, hslew⟩ := hs
    simp only [TickInv, tck_ite, pgErr_fields, modTck_fields, ite_self]
    refine ⟨?_, ?_, hsrc, hslew⟩ <;> split <;> omega

theorem tickInv_decideCfg {s : State} (hs : TickInv s) : TickInv (decideCfg s) := by
  unfold decideCfg
  split
  · exact hs
  · dsimp only
    split
    · exact hs.of_inForce (by simp [Tck.inForce])
    · rename_i hw
      obtain ⟨hlo, hhi, hsrc, hslew⟩ := hs
      obtain ⟨hw3, hw1⟩ := not_or.mp hw
      simp only [TickInv, modTck_fields]
      split
      · exact ⟨hlo, hhi, hsrc, not_lt.mp hw1⟩
      · exact ⟨hlo, hhi, hw3, not_lt.mp hw1⟩

theorem tickInv_tickCount {s : State} (hs : TickInv s) : TickInv (tickCount s) := by
  simpa [TickInv, tickCount] using hs

theorem tickInv_tickUnit {s : State} (hs : TickInv s) (runB : Bool) (i : BoundaryIn) :
    TickInv (tickUnit runB i s) := by
  have hopen : TickInv (modTck s fun k => { k with phase := .openP, slewing := false }) := hs
  refine (tickInv_decideCfg (tickInv_decidePeriod hopen runB)).of_inForce ?_
  simp only [tickUnit, touch_fields, tck_ite, bump_fields, ite_self]
  exact decideT0_inForce _

theorem tickInv_boundary {s : State} (hs : TickInv s) (i : BoundaryIn) : TickInv (boundary i s) := by
  unfold boundary
  extract_lets s0 s1 s2 s3 runB s4 s5
  have h0 : TickInv s0 := hs.of_inForce (by simp [s0])
  have h1 : TickInv s1 := tickInv_tickCount h0
  have h3 : TickInv s3 := h1.of_inForce (by simp [s3, s2])
  have h4 : TickInv s4 := (tickInv_tickUnit h3 runB i).of_inForce (by simp [s4])
  exact h4.of_inForce (by simp [s5])

theorem tickInv_execTickBoundary {s t : State} {i : BoundaryIn} (hs : TickInv s) (h : execTickBoundary i s = .next t) :
    TickInv t := by
  simp only [execTickBoundary, Host.Outcome.next.injEq] at h
  subst h
  split
  · split
    · exact (tickInv_tickUnit (tickInv_tickCount hs) false i).of_inForce (by simp [savingBoundary])
    · exact tickInv_boundary hs i
  · exact hs

theorem tickInv_reset : TickInv State.reset := ⟨by decide, by decide, by decide, by decide⟩

theorem tickInv_restart (s : State) : TickInv (restart s) :=
  tickInv_reset.of_inForce (by simp [restart, resetState])

theorem tickInv_execDeviceReset {s t : State} {k : ResetKind} (hs : TickInv s) (h : execDeviceReset k s = .next t) :
    TickInv t := by
  simp only [execDeviceReset, Host.Outcome.next.injEq] at h
  subst h
  split
  · exact hs
  · split
    · exact tickInv_restart _
    · split
      · exact tickInv_restart _
      · exact hs
    · split
      · exact tickInv_restart _
      · exact hs

theorem tickInv_execModuleStart {s t : State} (hs : TickInv s) (h : execModuleStart s = .next t) : TickInv t := by
  simp only [execModuleStart, Host.Outcome.next.injEq] at h
  subst h
  split
  · split
    · exact hs
    · exact hs.of_inForce (by simp)
  · exact (tickInv_restart _).of_inForce (congrArg Tck.inForce (showInput_tck _))

theorem tickInv_settleStaged {s : State} (hs : TickInv s) : TickInv (settleStaged s) :=
  (tickInv_decideCfg (tickInv_decidePeriod hs false)).of_inForce (by simp [settleStaged])

theorem tickInv_applyConfig {s : State} (hs : TickInv s) (b : Bool) : TickInv (applyConfig s b) :=
  tickInv_settleStaged (hs.of_inForce (by simp))

theorem tickInv_configure {s : State} (hs : TickInv s) (i : StageIn) : TickInv (configure i s) := by
  have huse (b : Bool) := tickInv_applyConfig hs b
  unfold configure
  dsimp only
  split
  · exact (huse false).of_inForce (by simp)
  · split
    · exact (huse true).of_inForce (by simp)
    · exact hs.of_inForce (by simp)

theorem tickInv_stageFirmware {s : State} (hs : TickInv s) (i : StageIn) : TickInv (stageFirmware i s) := by
  unfold stageFirmware
  split
  · exact hs
  · exact tickInv_configure (hs.of_inForce (by simp)) i

theorem tickInv_restoreSet {s : State} (hs : TickInv s) (m : Bytes) : TickInv (restoreSet m s) := by
  simpa [TickInv, restoreSet] using hs

theorem tickInv_stageRestore {s : State} (hs : TickInv s) : TickInv (stageRestore s) := by
  have hlog (t : State) (ht : TickInv t) (f : Glb → Glb) (r : Report) : TickInv (logErr (modGlb t f) r) :=
    ht.of_inForce (by simp)
  unfold stageRestore
  refine hlog _ ?_ _ _
  split
  · dsimp only
    split
    · exact tickInv_restoreSet (s := modPwr s _) hs _
    · exact hs
  · exact hs

theorem tickInv_stageDone {s : State} (hs : TickInv s) (i : StageIn) : TickInv (stageDone i s) := by
  unfold stageDone
  split
  · exact hs.of_inForce (by simp)
  · exact tickInv_stageFirmware hs i
  · exact hs.of_inForce (by simp)
  · exact hs.of_inForce (by simp)
  · exact hs.of_inForce (by simp)
  · exact hs.of_inForce (by simp)
  · exact tickInv_stageRestore hs
  · exact hs.of_inForce (by simp)
  · exact hs

theorem tickInv_execStartupStageDone {s t : State} {i : StageIn} (hs : TickInv s)
    (h : execStartupStageDone i s = .next t) : TickInv t := by
  simp only [execStartupStageDone, Host.Outcome.next.injEq] at h
  subst h
  split
  · exact (tickInv_stageDone hs i).of_inForce (by simp)
  · exact hs

/-! ### Every step -/

/-- A command that does not move the device tick counter keeps the settings in force. -/
theorem exec_inForce (c : Instr) (s : State) (h : movesDevTick c = false) : InForceKept s (exec c s) := by
  cases c
  case tickBoundary | deviceReset | moduleStart | startupStageDone => cases h
  all_goals dsimp only [exec]
  all_goals simp

theorem tickInv_exec {c : Instr} {s t : State} (hs : TickInv s) (h : exec c s = .next t) : TickInv t := by
  by_cases hc : movesDevTick c = false
  · exact hs.of_inForce (exec_inForce c s hc t h)
  · cases c
    case tickBoundary => exact tickInv_execTickBoundary hs h
    case deviceReset => exact tickInv_execDeviceReset hs h
    case moduleStart => exact tickInv_execModuleStart hs h
    case startupStageDone => exact tickInv_execStartupStageDone hs h
    all_goals exact absurd rfl hc

theorem tickInv_step {s t : State} (hs : TickInv s) (h : step s = .next t) : TickInv t := by
  unfold step at h
  split at h
  · cases h
    exact hs
  · rename_i rest _
    have hrest : TickInv { s with pending := rest } := hs
    exact tickInv_exec hrest h

end Sys2Proof.Machine

namespace Sys2Proof.Proofs
open Sys2Proof.Machine

/-- Settles O4: the four commands that may change the period, SRC or SLEW_NS put legal values in force, every other
keeps them. -/
theorem tickUnitStaysLegal : Obligations.tick_unit_stays_legal := by
  unfold Obligations.tick_unit_stays_legal
  exact ⟨rfl, fun _ _ => tickInv_step⟩

end Sys2Proof.Proofs

namespace Sys2Proof.Machine

/-! ## Registers and predicates of a context (R159) -/

@[simp] theorem getReg_zero (x : Ctx) : getReg x 0 = 0 := rfl

@[simp] theorem getPred_zero (x : Ctx) : getPred x 0 = true := rfl

@[simp] theorem putReg_zero (x : Ctx) (v : Word) (n : Nat) : putReg x 0 v n = x := rfl

@[simp] theorem putPred_zero (x : Ctx) (v : Bool) : putPred x 0 v = x := rfl

/-- g0 is the one register that a write does not reach. -/
theorem getReg_putReg (x : Ctx) (r : Nat) (v : Word) (n q : Nat) :
    getReg (putReg x r v n) q = if q = r ∧ q ≠ 0 then v else getReg x q := by
  unfold getReg putReg
  by_cases hr : r = 0
  · subst hr
    simp
  · by_cases hq : q = 0
    · simp [hq]
    · simp [hr, hq, mget_mset]

theorem rdy_putReg (x : Ctx) (r : Nat) (v : Word) (n q : Nat) :
    mget (putReg x r v n).rdy 0 q = if q = r ∧ q ≠ 0 then n else mget x.rdy 0 q := by
  unfold putReg
  by_cases hr : r = 0
  · subst hr
    simp
  · rw [if_neg hr, mget_mset]
    by_cases hq : q = r <;> simp [hq, hr]

/-- An instruction that is off makes a reader wait as a write does (R163, R165). -/
theorem rdy_holdReg (x : Ctx) (r n q : Nat) :
    mget (holdReg x r n).rdy 0 q = if q = r ∧ q ≠ 0 then n else mget x.rdy 0 q := by
  rw [← rdy_putReg x r 0]
  unfold holdReg putReg
  split <;> rfl

/-- p0 is the one predicate that a write does not reach. -/
theorem getPred_putPred (x : Ctx) (p : Nat) (b : Bool) {q : Nat} (hq : q < 8) :
    getPred (putPred x p b) q = if q = p % 8 ∧ q ≠ 0 then b else getPred x q := by
  unfold getPred putPred
  rw [Nat.mod_eq_of_lt hq]
  by_cases hp : p % 8 = 0
  · rw [if_pos hp, if_neg (by omega)]
  · rw [if_neg hp]
    cases b with
    | true =>
      simp only [if_true, BitVec.getLsbD_or, BitVec.natCast_eq_ofNat, BitVec.getLsbD_ofNat, Nat.one_shiftLeft,
        Nat.testBit_two_pow]
      grind
    | false =>
      simp only [Bool.false_eq_true, if_false, BitVec.getLsbD_and, BitVec.getLsbD_not, BitVec.getLsbD_shiftLeft]
      grind

/-! ## One issue of a sprig (R159–R165)

`runInstr_of_issues` says what an instruction leaves that issues: `afterIssue`, changed by its effect, or `afterWait`.
`IssuedWith` collects what an effect keeps of `afterIssue`, and has a rule for each kind of effect. -/

@[simp] theorem setCtx_fields (x : Sprig) (a : Fin 4) (v : Ctx) :
    (setCtx x a v).active = x.active ∧ (setCtx x a v).imem = x.imem ∧ (setCtx x a v).prog = x.prog ∧
    (setCtx x a v).cycle = x.cycle ∧ (setCtx x a v).divFree = x.divFree ∧ (setCtx x a v).cnt = x.cnt ∧
    (setCtx x a v).dmem = x.dmem ∧ (setCtx x a v).lfsr = x.lfsr := by
  match a with
  | 0 | 1 | 2 | 3 => and_intros <;> rfl

@[simp] theorem modCtx_fields (x : Sprig) (a : Fin 4) (f : Ctx → Ctx) :
    (modCtx x a f).active = x.active ∧ (modCtx x a f).imem = x.imem ∧ (modCtx x a f).prog = x.prog ∧
    (modCtx x a f).cycle = x.cycle ∧ (modCtx x a f).divFree = x.divFree ∧ (modCtx x a f).cnt = x.cnt ∧
    (modCtx x a f).dmem = x.dmem ∧ (modCtx x a f).lfsr = x.lfsr := setCtx_fields x a _

theorem ctxAt_modCtx (x : Sprig) (a : Fin 4) (f : Ctx → Ctx) (b : Fin 4) :
    ctxAt (modCtx x a f) b = if b = a then f (ctxAt x a) else ctxAt x b := ctxAt_setCtx x a _ b

/-- What a change to one sprig leaves of each sprig of the cluster. -/
theorem sprigOf_modSprig (s : State) (c p : Nat) (f : Sprig → Sprig) (q : Nat) :
    sprigOf (modCluster s c fun k => modSprig k p f) c q = if q = p then f (sprigOf s c p) else sprigOf s c q := by
  unfold sprigOf
  rw [clusterAt_modCluster, if_pos rfl]
  exact sprigAt_setSprig _ p _ q

theorem sprigOf_modSprig_self (s : State) (c p : Nat) (f : Sprig → Sprig) :
    sprigOf (modCluster s c fun k => modSprig k p f) c p = f (sprigOf s c p) := by
  rw [sprigOf_modSprig, if_pos rfl]

/-- A change to a cluster that neither reads nor writes its sprigs. -/
def SprigsFree (g : Cluster → Cluster) : Prop := ∀ j l, g { j with sprigs := l } = { g j with sprigs := l }

theorem SprigsFree.sprigs {g : Cluster → Cluster} (h : SprigsFree g) (j : Cluster) : (g j).sprigs = j.sprigs :=
  (congrArg Cluster.sprigs (h j j.sprigs) :)

theorem sprigOf_modCluster (s : State) (c p : Nat) (g : Cluster → Cluster) (hg : SprigsFree g) :
    sprigOf (modCluster s c g) c p = sprigOf s c p := by
  unfold sprigOf sprigAt
  rw [clusterAt_modCluster, if_pos rfl, hg.sprigs]

theorem clustersBut_modCluster (s : State) (c : Nat) (g : Cluster → Cluster) : ClustersBut c s (modCluster s c g) :=
  fun d hd => by rw [clusterAt_modCluster, if_neg hd]

/-- Going on to the next instruction changes the program counter and the loop levels alone (R162, R169). -/
theorem ctxKept_advancePc (x : Ctx) : CtxKept x (advancePc x) := by
  simp only [CtxKept, advancePc]
  repeat' split
  all_goals rfl

/-- What one issue in cycle `u` makes of its sprig, whatever the instruction does beyond that. -/
def SprigIssued (x y : Sprig) (u : Nat) : Prop :=
  (∀ b, b ≠ x.active → ctxAt y b = ctxAt x b) ∧ y.active = x.active ∧ y.imem = x.imem ∧ y.prog = x.prog ∧
  y.cycle = u + 1 ∧ y.cnt.busy = x.cnt.busy + 1 ∧ y.cnt.dep = x.cnt.dep + (u - x.cycle)

theorem sprigIssued_issued (x : Sprig) (u : Nat) : SprigIssued x (issued x x.active u) u := by
  unfold issued SprigIssued
  refine ⟨fun b hb => ?_, by simp [stallDep]⟩
  rw [ctxAt_modCtx, if_neg hb]
  rfl

theorem SprigIssued.modCtx {x y : Sprig} {u : Nat} (h : SprigIssued x y u) (f : Ctx → Ctx) :
    SprigIssued x (modCtx y x.active f) u := by
  obtain ⟨hctx, hfields⟩ := h
  refine ⟨fun b hb => ?_, by simpa using hfields⟩
  rw [ctxAt_modCtx, if_neg hb, hctx b hb]

theorem issued_iff (s t : State) (c p u : Nat) (k : Cluster) :
    Issued s t c p u k ↔
      t = { s with clusters := t.clusters } ∧ ClustersBut c s t ∧
      clusterAt t c = { k with sprigs := (clusterAt t c).sprigs } ∧
      (∀ q, q ≠ p → sprigOf t c q = sprigOf s c q) ∧ SprigIssued (sprigOf s c p) (sprigOf t c p) u := Iff.rfl

/-- A further change to the sprig that issued. -/
theorem Issued.modSprig {s t : State} {c p u : Nat} {k : Cluster} (h : Issued s t c p u k) {f : Sprig → Sprig}
    (hf : SprigIssued (sprigOf s c p) (f (sprigOf t c p)) u) :
    Issued s (modCluster t c fun k => modSprig k p f) c p u k := by
  rw [issued_iff] at *
  obtain ⟨hstate, hbut, hcluster, hothers, -⟩ := h
  refine ⟨?_, fun d hd => ?_, ?_, fun q hq => ?_, ?_⟩
  · rw [hstate]
    rfl
  · rw [clustersBut_modCluster t c _ d hd, hbut d hd]
  · rw [clusterAt_modCluster, if_pos rfl, hcluster]
    rfl
  · rw [sprigOf_modSprig, if_neg hq, hothers q hq]
  · rwa [sprigOf_modSprig_self]

/-- A further change to the cluster that does not touch its sprigs. -/
theorem Issued.modCluster {s t : State} {c p u : Nat} {k : Cluster} (h : Issued s t c p u k)
    {g : Cluster → Cluster} (hg : SprigsFree g) : Issued s (modCluster t c g) c p u (g k) := by
  rw [issued_iff] at *
  obtain ⟨hstate, hbut, hcluster, hothers, hsprig⟩ := h
  refine ⟨?_, fun d hd => ?_, ?_, fun q hq => ?_, ?_⟩
  · rw [hstate]
    rfl
  · rw [clustersBut_modCluster t c _ d hd, hbut d hd]
  · rw [clusterAt_modCluster, if_pos rfl, hcluster, hg]
  · rw [sprigOf_modCluster t c q g hg, hothers q hq]
  · rwa [sprigOf_modCluster t c p g hg]

/-- Free values that the issue takes are all that it changes outside its cluster. -/
theorem Issued.burn {s t : State} {c p u : Nat} {k : Cluster} (h : Issued s t c p u k) (n : Nat) :
    (burn t n).fresh = s.fresh + n ∧ Issued s { burn t n with fresh := s.fresh } c p u k := by
  have hfresh : t.fresh = s.fresh := (congrArg State.fresh h.1 :)
  refine ⟨by simp [hfresh], ?_⟩
  rw [← hfresh]
  exact h

/-- The state in which an instruction's effect starts: its sprig has issued it, and nothing else changed. -/
def afterIssue (s : State) (c p u : Nat) : State :=
  modCluster s c fun k => modSprig k p fun x => issued x (sprigOf s c p).active u

/-- The state after a sprig has waited in cycle `u` for what `b` names. -/
def afterWait (s : State) (c p u : Nat) (b : Wait) : State :=
  modCluster s c fun k =>
    { modSprig k p (fun x => waited x u b) with tagStall := k.tagStall + (if b = .tag then 1 else 0) }

/-- What an instruction sees when it issues; `div` says that it needs the divide unit. -/
def issueEnv (s : State) (c p : Nat) (rs : List Nat) (div : Bool) : Env :=
  { k := clusterAt s c, x := sprigOf s c p, cx := activeCtx s c p, a := (sprigOf s c p).active,
    h := (clusterAt s c).owner, t := issueCycle s c p rs div }

theorem Issues.not_slotOver {s : State} {c p : Nat} {w : Word} {rs : List Nat} {div : Bool}
    (h : Issues s c p w rs div) :
    ¬((laying (clusterAt s c) &&
      decide (slotEnd (clusterAt s c) (sprigOf s c p).cycle ≤ issueCycle s c p rs div)) = true) := by
  obtain ⟨-, hslot⟩ := h
  simp only [Bool.and_eq_true, decide_eq_true_eq, not_and, not_le]
  exact hslot

/-- What an instruction does that is the sprig's next and issues in the slot in progress: its effect, unless something
beyond its sources holds it for a cycle (R162, R163). -/
theorem runInstr_of_issues {s : State} {c p : Nat} {w : Word} {rs : List Nat} {div : Bool} (h : Issues s c p w rs div)
    (blocked : Env → Option Wait) (eff : Env → State → State) :
    runInstr s c p w rs div blocked eff = .next (
      match blocked (issueEnv s c p rs div) with
      | some b => afterWait s c p (issueCycle s c p rs div) b
      | none => eff (issueEnv s c p rs div) (afterIssue s c p (issueCycle s c p rs div))) := by
  unfold runInstr
  rw [if_pos h.1]
  exact congrArg Host.Outcome.next (if_neg h.not_slotOver)

theorem runInstr_unblocked {s : State} {c p : Nat} {w : Word} {rs : List Nat} {div : Bool} (h : Issues s c p w rs div)
    {blocked : Env → Option Wait} (hb : blocked (issueEnv s c p rs div) = none) (eff : Env → State → State) :
    runInstr s c p w rs div blocked eff =
      .next (eff (issueEnv s c p rs div) (afterIssue s c p (issueCycle s c p rs div))) := by
  rw [runInstr_of_issues h, hb]

theorem runInstr_waits {s : State} {c p : Nat} {w : Word} {rs : List Nat} {div : Bool} (h : Issues s c p w rs div)
    {blocked : Env → Option Wait} {b : Wait} (hb : blocked (issueEnv s c p rs div) = some b)
    (eff : Env → State → State) :
    runInstr s c p w rs div blocked eff = .next (afterWait s c p (issueCycle s c p rs div) b) := by
  rw [runInstr_of_issues h, hb]

/-- One issue in cycle `u` that leaves the sprig's data memory and generator alone, the cluster as `k` and the issuing
context as `y`. -/
structure IssuedWith (s t : State) (c p u : Nat) (k : Cluster) (y : Ctx) : Prop where
  issued : Issued s t c p u k
  stores : SprigStores s t c p
  ctx : activeCtx t c p = y

theorem issued_afterIssue (s : State) (c p u : Nat) : Issued s (afterIssue s c p u) c p u (clusterAt s c) := by
  rw [issued_iff]
  unfold afterIssue
  refine ⟨rfl, clustersBut_modCluster s c _, ?_, fun q hq => ?_, ?_⟩
  · rw [clusterAt_modCluster, if_pos rfl]
    rfl
  · rw [sprigOf_modSprig, if_neg hq]
  · rw [sprigOf_modSprig_self]
    exact sprigIssued_issued _ u

theorem sprigOf_afterIssue (s : State) (c p u : Nat) :
    sprigOf (afterIssue s c p u) c p = issued (sprigOf s c p) (sprigOf s c p).active u := sprigOf_modSprig_self ..

theorem sprigOf_afterWait (s : State) (c p u : Nat) (b : Wait) :
    sprigOf (afterWait s c p u b) c p = waited (sprigOf s c p) u b := by
  unfold sprigOf afterWait
  rw [clusterAt_modCluster, if_pos rfl]
  exact (sprigAt_setSprig (clusterAt s c) p _ p).trans (if_pos rfl)

theorem clusterAt_afterWait (s : State) (c p u : Nat) (b : Wait) :
    clusterAt (afterWait s c p u b) c = { clusterAt s c with
      sprigs := (clusterAt (afterWait s c p u b) c).sprigs
      tagStall := (clusterAt s c).tagStall + (if b = .tag then 1 else 0) } := by
  unfold afterWait
  rw [clusterAt_modCluster, if_pos rfl]
  rfl

theorem activeCtx_afterIssue (s : State) (c p u : Nat) :
    activeCtx (afterIssue s c p u) c p = advancePc (activeCtx s c p) := by
  unfold activeCtx
  rw [sprigOf_afterIssue, issued, ctxAt_modCtx, if_pos (by simp [stallDep])]
  rfl

theorem issuedWith_afterIssue (s : State) (c p u : Nat) :
    IssuedWith s (afterIssue s c p u) c p u (clusterAt s c) (advancePc (activeCtx s c p)) where
  issued := issued_afterIssue s c p u
  stores := by
    unfold SprigStores
    rw [sprigOf_afterIssue]
    simp [Sys2Proof.Machine.issued, stallDep]
  ctx := activeCtx_afterIssue s c p u

section
variable {s t : State} {c p u : Nat} {k : Cluster} {y : Ctx}

/-- The issuing context changes. -/
theorem IssuedWith.modIssuer (h : IssuedWith s t c p u k y) (f : Ctx → Ctx) :
    IssuedWith s (modIssuer t c p (sprigOf s c p).active f) c p u k (f y) := by
  obtain ⟨hissued, hstores, rfl⟩ := h
  obtain ⟨-, -, -, -, hsprig⟩ := (issued_iff ..).mp hissued
  obtain ⟨-, hactive, -⟩ := id hsprig
  refine ⟨hissued.modSprig (hsprig.modCtx f), ?_, ?_⟩
  · simpa only [SprigStores, Machine.modIssuer, sprigOf_modSprig_self, modCtx_fields] using hstores
  · simp [activeCtx, Machine.modIssuer, sprigOf_modSprig_self, ctxAt_modCtx, hactive]

/-- The divide unit is taken until cycle `n` (R163). -/
theorem IssuedWith.divFree (h : IssuedWith s t c p u k y) (n : Nat) :
    IssuedWith s (Machine.modCluster t c fun k => modSprig k p fun x => { x with divFree := n }) c p u k y := by
  obtain ⟨hissued, hstores, rfl⟩ := h
  obtain ⟨-, -, -, -, hsprig⟩ := (issued_iff ..).mp hissued
  refine ⟨hissued.modSprig hsprig, ?_, ?_⟩
  · simpa only [SprigStores, sprigOf_modSprig_self] using hstores
  · simp only [activeCtx, sprigOf_modSprig_self]
    rfl

/-- The cluster changes outside its sprigs. -/
theorem IssuedWith.modCluster (h : IssuedWith s t c p u k y) {g : Cluster → Cluster} (hg : SprigsFree g) :
    IssuedWith s (modCluster t c g) c p u (g k) y := by
  obtain ⟨hissued, hstores, rfl⟩ := h
  have hsprig : sprigOf (Machine.modCluster t c g) c p = sprigOf t c p := sprigOf_modCluster t c p g hg
  refine ⟨hissued.modCluster hg, ?_, ?_⟩
  · rwa [SprigStores, hsprig]
  · rw [activeCtx, hsprig]
    rfl

end

/-! ### What an instruction leaves of its context -/

/-- A write to a register of the context that goes on at the next address. -/
theorem regPut_putReg {x y : Ctx} (h : CtxKept x y) (rd : Nat) (v : Word) (n : Nat) :
    RegPut x (putReg y rd v n) rd v n := by
  rw [CtxKept] at h
  refine ⟨?_, fun r => ?_, fun r => ?_⟩
  · rw [h]
    unfold putReg
    split <;> rfl
  · rw [getReg_putReg, h]
    rfl
  · rw [rdy_putReg, h]

theorem regHeld_holdReg {x y : Ctx} (h : CtxKept x y) (rd n : Nat) : RegHeld x (holdReg y rd n) rd n := by
  rw [CtxKept] at h
  refine ⟨?_, fun r => ?_⟩
  · rw [h]
    unfold holdReg
    split <;> rfl
  · rw [rdy_holdReg, h]

section
variable {i : Instr} {s : State} {c p : Nat} {w : Word} {rs : List Nat} {div : Bool} {rd lat : Nat}

theorem regResult_of_issuedWith {v : Word} {t : State} (h : Issues s c p w rs false → exec i s = .next t)
    (ht : IssuedWith s t c p (issueCycle s c p rs false) (clusterAt s c)
      (putReg (advancePc (activeCtx s c p)) rd v (issueCycle s c p rs false + lat))) :
    RegResult i s c p w rs rd lat v :=
  fun hi => ⟨t, h hi, ht.issued, ht.stores, ht.ctx ▸ regPut_putReg (ctxKept_advancePc _) ..⟩

theorem offResult_kept {t : State} (h : Issues s c p w rs div → exec i s = .next t)
    (ht : IssuedWith s t c p (issueCycle s c p rs div) (clusterAt s c) (advancePc (activeCtx s c p))) :
    OffResult i s c p w rs div none :=
  fun hi => ⟨t, h hi, ht.issued, ht.stores, ht.ctx ▸ ctxKept_advancePc _⟩

theorem offResult_held {t : State} (h : Issues s c p w rs div → exec i s = .next t)
    (ht : IssuedWith s t c p (issueCycle s c p rs div) (clusterAt s c)
      (holdReg (advancePc (activeCtx s c p)) rd (issueCycle s c p rs div + lat))) :
    OffResult i s c p w rs div (some (rd, lat)) :=
  fun hi => ⟨t, h hi, ht.issued, ht.stores, ht.ctx ▸ regHeld_holdReg (ctxKept_advancePc _) ..⟩

end

/-! ### Instructions on registers and predicates, on and off (R163, R165) -/

section
variable {i : Instr} {s : State} {c p : Nat} {w : Word} {rs : List Nat} {pred : Fin 8} {pneg : Bool} {rd lat : Nat}

/-- The effect of an instruction with a register result (R163, R165). -/
def regEffect (c p : Nat) (pred : Fin 8) (pneg : Bool) (rd lat : Nat) (v : Env → Word) (e : Env)
    (t : State) : State :=
  modIssuer t c p e.a fun x =>
    if predOn e.cx pred pneg then putReg x rd (v e) (e.t + lat) else holdReg x rd (e.t + lat)

theorem regResult_of_regEffect {v : Env → Word} (hon : predOn (activeCtx s c p) pred pneg = true)
    (hi : exec i s = runInstr s c p w rs false free (regEffect c p pred pneg rd lat v)) :
    RegResult i s c p w rs rd lat (v (issueEnv s c p rs false)) :=
  regResult_of_issuedWith (fun h => hi.trans (runInstr_unblocked h rfl _)) <| by
    simp only [regEffect, issueEnv, hon]
    exact (issuedWith_afterIssue ..).modIssuer _

theorem offResult_of_regEffect {v : Env → Word} (hoff : predOn (activeCtx s c p) pred pneg = false)
    (hi : exec i s = runInstr s c p w rs false free (regEffect c p pred pneg rd lat v)) :
    OffResult i s c p w rs false (some (rd, lat)) :=
  offResult_held (fun h => hi.trans (runInstr_unblocked h rfl _)) <| by
    simp only [regEffect, issueEnv, hoff]
    exact (issuedWith_afterIssue ..).modIssuer _

theorem offResult_of_predInstr {pd : Nat} {v : Ctx → Bool × BitVec 4}
    (hoff : predOn (activeCtx s c p) pred pneg = false)
    (hi : exec i s = predInstr s c p w rs pred pneg pd v) : OffResult i s c p w rs false none :=
  offResult_kept (fun h => hi.trans (runInstr_unblocked h rfl _)) <| by
    simp only [issueEnv, hoff]
    exact issuedWith_afterIssue ..

end

section
variable {i : Instr} {s : State} {c : Cl} {p : Sp} {op lat : Nat}

theorem offResult_of_regInstr {c p : Nat} {w : Word} {rs : List Nat} {pred : Fin 8} {pneg : Bool} {rd : Nat}
    {v : Ctx → Word} (hoff : predOn (activeCtx s c p) pred pneg = false)
    (hi : exec i s = regInstr s c p w rs pred pneg rd lat v) : OffResult i s c p w rs false (some (rd, lat)) :=
  offResult_of_regEffect hoff (v := fun e => v e.cx) hi

theorem offResult_of_aluA {f : FmtA} {v : Word → Word → Word}
    (hoff : predOn (activeCtx s c.val p.val) f.pred f.pneg = false) (hi : exec i s = aluA op lat v c p f s) :
    OffResult i s c.val p.val (wordA op f) [f.rs1.val, f.rs2.val] false (some (f.rd.val, lat)) :=
  offResult_of_regInstr hoff hi

theorem offResult_of_aluB {f : FmtB} {v : Word → Word → Word}
    (hoff : predOn (activeCtx s c.val p.val) f.pred f.pneg = false) (hi : exec i s = aluB op v c p f s) :
    OffResult i s c.val p.val (wordB op f) [f.rs1.val] false (some (f.rd.val, 1)) :=
  offResult_of_regInstr hoff hi

theorem offResult_of_fpInstr {f : FmtA} {rs : List Nat} {div : Bool} {v : Ctx → Word × BitVec 4}
    (hoff : predOn (activeCtx s c.val p.val) f.pred f.pneg = false) (hi : exec i s = fpInstr op lat rs div v c p f s) :
    OffResult i s c.val p.val (wordA op f) rs div (some (f.rd.val, lat)) :=
  offResult_held (fun h => hi.trans (runInstr_unblocked h rfl _)) <| by
    simp only [issueEnv, hoff]
    cases div with
    | false => exact (issuedWith_afterIssue ..).modIssuer _
    | true => exact ((issuedWith_afterIssue ..).divFree _).modIssuer _

end

/-! ### Data memory (R168) -/

/-- What a load from data memory puts into its register. -/
def loadedWord (n : Nat) (f : FmtB) (e : Env) : Word :=
  BitVec.ofNat 32 (readLe e.x.dmem (dataAddr (getReg e.cx f.rs1.val + imm12 f) n) n)

/-- A data-memory address as the remainder by 2,048, aligned down. -/
theorem dataAddr_eq (a : Word) (n : Nat) : dataAddr a n = a.toNat % 2048 - a.toNat % 2048 % n :=
  Nat.div_mul_self_eq_mod_sub_self

section
variable {i : Instr} {s : State} {c : Cl} {p : Sp} {op n : Nat} {f : FmtB}

theorem regResult_of_dataLoad (hon : predOn (activeCtx s c.val p.val) f.pred f.pneg = true)
    (hi : exec i s = dataLoad op n c p f s) :
    RegResult i s c.val p.val (wordB op f) [f.rs1.val] f.rd.val 2
      (loadedWord n f (issueEnv s c.val p.val [f.rs1.val] false)) :=
  regResult_of_regEffect hon hi

theorem offResult_of_dataLoad (hoff : predOn (activeCtx s c.val p.val) f.pred f.pneg = false)
    (hi : exec i s = dataLoad op n c p f s) :
    OffResult i s c.val p.val (wordB op f) [f.rs1.val] false (some (f.rd.val, 2)) :=
  offResult_of_regEffect hoff (v := loadedWord n f) hi

theorem offResult_of_dataStore (hoff : predOn (activeCtx s c.val p.val) f.pred f.pneg = false)
    (hi : exec i s = dataStore op n c p f s) :
    OffResult i s c.val p.val (wordB op f) [f.rs1.val, f.rd.val] false none :=
  offResult_kept (fun h => hi.trans (runInstr_unblocked h rfl _)) <| by
    simp only [issueEnv, hoff]
    exact issuedWith_afterIssue ..

/-- A store to data memory writes its bytes and nothing else. -/
theorem dataStore_on (hon : predOn (activeCtx s c.val p.val) f.pred f.pneg = true)
    (h : Issues s c.val p.val (wordB op f) [f.rs1.val, f.rd.val] false) :
    ∃ t : State, dataStore op n c p f s = .next t ∧
      Issued s t c.val p.val (issueCycle s c.val p.val [f.rs1.val, f.rd.val] false) (clusterAt s c.val) ∧
      CtxKept (activeCtx s c.val p.val) (activeCtx t c.val p.val) ∧
      (sprigOf t c.val p.val).lfsr = (sprigOf s c.val p.val).lfsr ∧
      Stored (sprigOf s c.val p.val).dmem (sprigOf t c.val p.val).dmem
        (dataAddr (getReg (activeCtx s c.val p.val) f.rs1.val + imm12 f) n)
        (leBytes n (getReg (activeCtx s c.val p.val) f.rd.val).toNat) := by
  refine ⟨_, runInstr_unblocked h rfl _, ?_⟩
  simp only [issueEnv, hon, if_true]
  obtain ⟨hissued, ⟨hdmem, hlfsr⟩, hctx⟩ :=
    issuedWith_afterIssue s c.val p.val (issueCycle s c.val p.val [f.rs1.val, f.rd.val] false)
  obtain ⟨-, -, -, -, hsprig⟩ := (issued_iff ..).mp hissued
  have hkept := hctx ▸ ctxKept_advancePc (activeCtx s c.val p.val)
  refine ⟨hissued.modSprig hsprig, ?_, ?_, fun a => ?_⟩
  · simp only [activeCtx, sprigOf_modSprig_self]
    exact hkept
  · rw [sprigOf_modSprig_self, ← hlfsr]
  · rw [sprigOf_modSprig_self, ← hdmem]
    exact byteAt_writeBytes ..

end

/-! ### The cluster store (R168, R175) -/

/-- The cluster with the bank of address `a` taken in cycle `u`. -/
def withBank (k : Cluster) (u a : Nat) : Cluster := { k with banks := mset k.banks 0 (u * 16 + bankOf a) 1 }

theorem sprigsFree_withBank (u a : Nat) : SprigsFree (withBank · u a) := fun _ _ => rfl

theorem sprigsFree_land (e : Landing) : SprigsFree (land · e) := fun _ _ => rfl

/-- What an access leaves: its bank is taken, and `l` is on its way to the store. -/
theorem IssuedWith.bankTaken {s t : State} {c p u a : Nat} {l : List Landing} {y : Ctx}
    (h : IssuedWith s t c p u { withBank (clusterAt s c) u a with landing := l } y) :
    Issued s t c p u { clusterAt s c with banks := (clusterAt t c).banks, landing := l } ∧
      BankTaken (clusterAt s c) (clusterAt t c) u a ∧ SprigStores s t c p := by
  obtain ⟨hissued, hstores, -⟩ := h
  obtain ⟨-, -, hcluster, -, -⟩ := (issued_iff ..).mp hissued
  have hbanks : (clusterAt t c).banks = mset (clusterAt s c).banks 0 (u * 16 + bankOf a) 1 := by
    rw [hcluster]
    rfl
  refine ⟨?_, ⟨?_, fun j => ?_⟩, hstores⟩
  · rw [hbanks]
    exact hissued
  · rw [hcluster]
    rfl
  · rw [hbanks, mget_mset]

theorem inTurn_bankTaken_of_turn {s : State} {c p : Nat} {rs : List Nat} {f : FmtB}
    (h : StoreTurn s c p (issueCycle s c p rs false) (clusterWord (activeCtx s c p) f)) :
    inTurn p (bankTaken f) (issueEnv s c p rs false) = none := by
  obtain ⟨hturn, hme, hbank⟩ := h
  simp [inTurn, bankTaken, issueEnv, hturn, hme, hbank]

theorem inTurn_bankTaken_of_taken {s : State} {c p : Nat} {rs : List Nat} {f : FmtB}
    (hturn : isTurn (clusterAt s c) p (issueCycle s c p rs false) = true)
    (h : meBusy (clusterAt s c) (issueCycle s c p rs false) (bankOf (clusterWord (activeCtx s c p) f)) = true ∨
      mget (clusterAt s c).banks 0
        (issueCycle s c p rs false * 16 + bankOf (clusterWord (activeCtx s c p) f)) ≠ 0) :
    inTurn p (bankTaken f) (issueEnv s c p rs false) = some .port := by
  simp [inTurn, bankTaken, issueEnv, hturn, h]

/-- The word's address as the remainder by the store's size, aligned down (R168). -/
theorem clusterWord_eq (x : Ctx) (f : FmtB) :
    clusterWord x f = (getReg x f.rs1.val + 4 * imm12 f).toNat % 1048576 -
      (getReg x f.rs1.val + 4 * imm12 f).toNat % 1048576 % 4 := Nat.div_mul_self_eq_mod_sub_self

/-- A word lies in one line, so an unpoisoned line is all that a read of it asks for. -/
theorem reportPoison_clusterWord {s : State} {c : Nat} {x : Ctx} {f : FmtB}
    (h : mget (clusterAt s c).poison false (clusterWord x f / 64) = false) :
    reportPoison s c (clusterWord x f) 4 = s := by
  generalize ha : clusterWord x f = a at h ⊢
  have hword : a % 4 = 0 ∧ a < 1048576 := by
    rw [clusterWord_eq] at ha
    omega
  have hlines : (a % 64 + 4 + 63) / 64 = 1 := by omega
  have hline : a / 64 % 16384 = a / 64 := by omega
  simp [reportPoison, hlines, hline, h]

theorem issuedWith_takeBank (m : State) (c p : Nat) (f : FmtB) (rs : List Nat) :
    let u := issueCycle m c p rs false
    IssuedWith m (takeBank c f (issueEnv m c p rs false) (afterIssue m c p u)) c p u
      (withBank (clusterAt m c) u (clusterWord (activeCtx m c p) f)) (advancePc (activeCtx m c p)) :=
  (issuedWith_afterIssue ..).modCluster (sprigsFree_withBank _ _)

/-- An access that finds its bank taken waits one cycle, a port stall (R175). -/
theorem exec_bankTaken {i : Instr} {s m : State} {c p : Nat} {w : Word} {rs : List Nat} {f : FmtB}
    {eff : Env → State → State} (hi : Issues m c p w rs false)
    (hexec : exec i s = runInstr m c p w rs false (inTurn p (bankTaken f)) eff) :
    let u := issueCycle m c p rs false
    let b := bankOf (clusterWord (activeCtx m c p) f)
    isTurn (clusterAt m c) p u = true →
    (meBusy (clusterAt m c) u b = true ∨ mget (clusterAt m c).banks 0 (u * 16 + b) ≠ 0) →
    ∃ t : State, exec i s = .next t ∧ t = { m with clusters := t.clusters } ∧ ClustersBut c m t ∧
      (clusterAt t c).banks = (clusterAt m c).banks ∧ (clusterAt t c).landing = (clusterAt m c).landing ∧
      (sprigOf t c p).cycle = u + 1 ∧ (sprigOf t c p).cnt.port = (sprigOf m c p).cnt.port + 1 ∧
      activeCtx t c p = activeCtx m c p := by
  intro u b hturn htaken
  refine ⟨_, hexec.trans (runInstr_waits hi (inTurn_bankTaken_of_taken hturn htaken) eff), rfl,
    clustersBut_modCluster m c _, ?_⟩
  rw [activeCtx, sprigOf_afterWait, clusterAt_afterWait]
  exact ⟨rfl, rfl, rfl, rfl, rfl⟩

section
variable {s m : State} {c : Cl} {p : Sp} {f : FmtB}

section
variable (hm : storeReady s c.val p.val (wordB 0x2C f) [f.rs1.val] = m)
  (hi : Issues m c.val p.val (wordB 0x2C f) [f.rs1.val] false)
include hm hi

theorem execLdc_off (hoff : predOn (activeCtx m c.val p.val) f.pred f.pneg = false) :
    let y := activeCtx m c.val p.val
    let u := issueCycle m c.val p.val [f.rs1.val] false
    StoreTurn m c.val p.val u (clusterWord y f) →
    ∃ t : State, exec (.ldc c p f) s = .next t ∧
      IssuedWith m t c.val p.val u (withBank (clusterAt m c.val) u (clusterWord y f))
        (holdReg (advancePc y) f.rd.val (u + 6)) := by
  intro y u ht
  have hexec : exec (.ldc c p f) s = execLdc c p f s := rfl
  rw [hexec, execLdc, hm, runInstr_unblocked hi (inTurn_bankTaken_of_turn ht)]
  refine ⟨_, rfl, ?_⟩
  simp only [issueEnv, hoff]
  exact (issuedWith_takeBank ..).modIssuer _

/-- A load reads the word as the store holds it in the cycle, and takes one free value for each write on its way that the
cycle may or may not see. -/
theorem execLdc_on (hon : predOn (activeCtx m c.val p.val) f.pred f.pneg = true) :
    let y := activeCtx m c.val p.val
    let u := issueCycle m c.val p.val [f.rs1.val] false
    let seen := storeSeen (clusterAt m c.val) u u m.fresh
    StoreTurn m c.val p.val u (clusterWord y f) →
    mget (clusterAt m c.val).poison false (clusterWord y f / 64) = false →
    ∃ t : State, exec (.ldc c p f) s = .next (burn t seen.2) ∧
      IssuedWith m t c.val p.val u (withBank (clusterAt m c.val) u (clusterWord y f))
        (putReg (advancePc y) f.rd.val (BitVec.ofNat 32 (readLe seen.1 (clusterWord y f) 4)) (u + 6)) := by
  intro y u seen ht hclean
  have hexec : exec (.ldc c p f) s = execLdc c p f s := rfl
  have htaken := issuedWith_takeBank m c.val p.val f [f.rs1.val]
  obtain ⟨-, -, hcluster, -, -⟩ := (issued_iff ..).mp htaken.issued
  rw [hexec, execLdc, hm, runInstr_unblocked hi (inTurn_bankTaken_of_turn ht)]
  refine ⟨_, ?_, htaken.modIssuer fun x =>
    putReg x f.rd.val (BitVec.ofNat 32 (readLe seen.1 (clusterWord y f) 4)) (u + 6)⟩
  dsimp only
  rw [if_pos (show predOn (issueEnv m c.val p.val [f.rs1.val] false).cx f.pred f.pneg = true from hon)]
  rw [reportPoison_clusterWord]
  · rfl
  · exact (congrArg (fun k : Cluster => mget k.poison false (clusterWord y f / 64)) hcluster).trans hclean

end

section
variable (hm : storeReady s c.val p.val (wordB 0x2D f) [f.rs1.val, f.rd.val] = m)
  (hi : Issues m c.val p.val (wordB 0x2D f) [f.rs1.val, f.rd.val] false)
include hm hi

theorem execStc_off (hoff : predOn (activeCtx m c.val p.val) f.pred f.pneg = false) :
    let y := activeCtx m c.val p.val
    let u := issueCycle m c.val p.val [f.rs1.val, f.rd.val] false
    StoreTurn m c.val p.val u (clusterWord y f) →
    ∃ t : State, exec (.stc c p f) s = .next t ∧
      IssuedWith m t c.val p.val u (withBank (clusterAt m c.val) u (clusterWord y f)) (advancePc y) := by
  intro y u ht
  have hexec : exec (.stc c p f) s = execStc c p f s := rfl
  rw [hexec, execStc, hm, runInstr_unblocked hi (inTurn_bankTaken_of_turn ht)]
  refine ⟨_, rfl, ?_⟩
  simp only [issueEnv, hoff]
  exact issuedWith_takeBank ..

/-- A store puts its word on its way, which every access sees from 6 cycles after its issue on. -/
theorem execStc_on (hon : predOn (activeCtx m c.val p.val) f.pred f.pneg = true) :
    let y := activeCtx m c.val p.val
    let u := issueCycle m c.val p.val [f.rs1.val, f.rd.val] false
    StoreTurn m c.val p.val u (clusterWord y f) →
    ∃ t : State, exec (.stc c p f) s = .next t ∧
      IssuedWith m t c.val p.val u
        (land (withBank (clusterAt m c.val) u (clusterWord y f))
          { lo := u + 1, hi := u + 6, addr := clusterWord y f, bytes := leBytes 4 (getReg y f.rd.val).toNat })
        (advancePc y) := by
  intro y u ht
  have hexec : exec (.stc c p f) s = execStc c p f s := rfl
  rw [hexec, execStc, hm, runInstr_unblocked hi (inTurn_bankTaken_of_turn ht)]
  refine ⟨_, rfl, ?_⟩
  simp only [issueEnv, hon]
  exact (issuedWith_takeBank ..).modCluster (sprigsFree_land _)

end

end

/-! ### What an access sees of the writes on their way (R142, R175) -/

/-- Writes that begin later than the access are not seen. -/
theorem storeSeen_of_later {k : Cluster} {lo hi : Nat} (n : Nat) (hle : lo ≤ hi)
    (h : ∀ e ∈ k.landing, hi < e.lo ∧ e.lo ≤ e.hi) : storeSeen k lo hi n = (k.store, 0) := by
  unfold storeSeen
  generalize k.landing = l at h
  induction l with
  | nil => rfl
  | cons e l ih =>
    obtain ⟨he, hl⟩ := List.forall_mem_cons.mp h
    rw [List.foldl_cons, if_neg (by omega), if_pos he.1]
    exact ih hl

/-- Writes that are sure by the access are seen, in their order. -/
theorem storeSeen_of_sure {k : Cluster} {lo : Nat} (hi n : Nat) (h : ∀ e ∈ k.landing, e.hi ≤ lo) :
    storeSeen k lo hi n = (k.landing.foldl (fun m e => writeBytes m e.addr e.bytes) k.store, 0) := by
  unfold storeSeen
  generalize k.landing = l at h
  generalize k.store = m
  induction l generalizing m with
  | nil => rfl
  | cons e l ih =>
    obtain ⟨he, hl⟩ := List.forall_mem_cons.mp h
    rw [List.foldl_cons, if_pos he, List.foldl_cons]
    exact ih hl _

end Sys2Proof.Machine

namespace Sys2Proof.Proofs
open Sys2Proof.Machine

/-- Settles O46: g0 and p0 are constant, and a write is read back at its own number alone. -/
theorem registersAndPredicates : Obligations.registers_and_predicates := by
  unfold Obligations.registers_and_predicates
  intro x r v n p b
  have hp : p.val % 8 = p.val := Nat.mod_eq_of_lt p.isLt
  refine ⟨getReg_zero x, getPred_zero x, putReg_zero x v n, putPred_zero x b, fun hr => ?_, fun hp0 => ?_,
    fun q hq => ?_, fun q hq => ?_⟩
  · rw [getReg_putReg, if_pos ⟨rfl, Fin.val_ne_zero_iff.mpr hr⟩]
  · rw [getPred_putPred x _ b p.isLt, if_pos ⟨hp.symm, Fin.val_ne_zero_iff.mpr hp0⟩]
  · rw [getReg_putReg, if_neg fun h => hq (Fin.ext h.1)]
  · rw [getPred_putPred x _ b q.isLt, if_neg fun h => hq (Fin.ext (h.1.trans hp))]

/-- Settles O49: each instruction that is off issues, and its effect holds its destination for a reader at most; LDC and
STC also take their bank. -/
theorem predicatedOffInstructions : Obligations.predicated_off_instructions := by
  unfold Obligations.predicated_off_instructions
  intro s c p x
  refine ⟨fun r n => ?_, fun f hoff => ?_, fun f hoff => ?_, fun f => ?_, fun f hoff => ?_⟩
  · cases n <;> simp [predOn]
  · intro h
    simp only [List.forall_mem_cons, List.not_mem_nil, IsEmpty.forall_iff, implies_true, and_true]
    refine ⟨⟨?add, ?sub, ?and, ?or, ?xor, ?shl, ?shr, ?sra, ?mul, ?min, ?max, ?cmp, ?sel, ?fadd, ?fsub, ?fmul⟩,
      ?plog, ?fma, ?fdiv, ?fsqrt, ?fcvt, ?srd⟩
    case cmp | plog => exact offResult_of_predInstr hoff (by dsimp only [exec]; rfl)
    case fadd | fsub | fmul | fma | fdiv | fsqrt | fcvt => exact offResult_of_fpInstr hoff (by dsimp only [exec]; rfl)
    case sel => exact offResult_of_regInstr hoff (by dsimp only [exec]; rfl)
    case srd => exact offResult_of_regEffect hoff (by dsimp only [exec]; rfl)
    all_goals exact offResult_of_aluA hoff (by dsimp only [exec]; rfl)
  · intro h
    simp only [List.forall_mem_cons, List.not_mem_nil, IsEmpty.forall_iff, implies_true, and_true]
    refine ⟨⟨?addi, ?andi, ?ori, ?shli, ?shri, ?cmpi, ?ld, ?ldh⟩, ?st, ?sth⟩
    case cmpi => exact offResult_of_predInstr hoff (by dsimp only [exec]; rfl)
    case ld | ldh => exact offResult_of_dataLoad hoff (by dsimp only [exec]; rfl)
    case st | sth => exact offResult_of_dataStore hoff (by dsimp only [exec]; rfl)
    all_goals exact offResult_of_aluB hoff (by dsimp only [exec]; rfl)
  · simp only [List.forall_mem_cons, List.not_mem_nil, IsEmpty.forall_iff, implies_true, and_true]
    refine ⟨fun hoff hturn hissues => ?ldc, fun hoff hturn hissues => ?stc⟩
    case ldc =>
      obtain ⟨t, hexec, ht⟩ := execLdc_off rfl hissues hoff hturn
      obtain ⟨hissued, hbank, hstores⟩ := ht.bankTaken
      exact ⟨t, hexec, hissued, hbank, hstores, ht.ctx ▸ regHeld_holdReg (ctxKept_advancePc _) ..⟩
    case stc =>
      obtain ⟨t, hexec, ht⟩ := execStc_off rfl hissues hoff hturn
      obtain ⟨hissued, hbank, hstores⟩ := ht.bankTaken
      exact ⟨t, hexec, hissued, hbank, hstores, ht.ctx ▸ ctxKept_advancePc _⟩
  · have hrd : bits f.imm.toNat 21 17 = f.imm.toNat / 2 ^ 17 := by
      have := f.imm.isLt
      unfold bits
      omega
    exact hrd ▸ offResult_of_regInstr hoff (by dsimp only [exec]; rfl)

/-- Settles O50: loads and stores of data memory; LDC and STC by what they leave in their turn, and by the port stall of a
taken bank; then what an access sees of the writes on their way. -/
theorem loadsAndStores : Obligations.loads_and_stores := by
  unfold Obligations.loads_and_stores
  refine ⟨fun s c p f => ?_, fun s c p f => ?_, fun k lo hi n => ⟨storeSeen_of_later n, storeSeen_of_sure hi n⟩⟩
  · intro x i da dm ls hon
    have hda (n : Nat) : da n = dataAddr (getReg x f.rs1.val + imm12 f) n := (dataAddr_eq ..).symm
    simp only [hda, List.forall_mem_cons, List.not_mem_nil, IsEmpty.forall_iff, implies_true, and_true]
    refine ⟨?ld, ?ldh, fun hi => ?st, fun hi => ?sth⟩
    case ld | ldh => exact regResult_of_dataLoad hon (by dsimp only [exec]; rfl)
    case st | sth => exact dataStore_on hon hi
  · intro i word
    have hword (y : Ctx) : word y = clusterWord y f := (clusterWord_eq y f).symm
    simp only [hword, List.forall_mem_cons, List.not_mem_nil, IsEmpty.forall_iff, implies_true, and_true]
    refine ⟨fun hon hi hturn hclean => ?ldc, fun hon hi hturn => ?stc, fun hi hturn htaken => ?ldcWaits,
      fun hi hturn htaken => ?stcWaits⟩
    case ldc =>
      obtain ⟨t, hexec, ht⟩ := execLdc_on rfl hi hon hturn hclean
      obtain ⟨hissued, hbank, hstores⟩ := ht.bankTaken
      obtain ⟨hfresh, hissued⟩ := hissued.burn _
      exact ⟨_, hexec, hfresh, hissued, hbank, hstores, ht.ctx ▸ regPut_putReg (ctxKept_advancePc _) ..⟩
    case stc =>
      obtain ⟨t, hexec, ht⟩ := execStc_on rfl hi hon hturn
      obtain ⟨hissued, hbank, hstores⟩ := ht.bankTaken
      exact ⟨t, hexec, hissued, hbank, hstores, ht.ctx ▸ ctxKept_advancePc _⟩
    case ldcWaits | stcWaits => exact exec_bankTaken hi (by dsimp only [exec]; rfl) hturn htaken

end Sys2Proof.Proofs

namespace Sys2Proof.Machine

/-! ## Boot images (R433, R434) -/

/-- What a boot ROM checks of an image (R433): P0 compares the SVN with its own fuses, P1 with its own. -/
theorem fwAccepts_iff {g : Glb} {die : Nat} {m : FwImage} :
    fwAccepts g die m = true ↔
      m.magic = 0x57465A57 ∧ m.length ≤ 8 * 1048576 ∧ m.keyOk.getLsbD die = true ∧ m.sigOk = true ∧
        m.digestOk = true ∧ (if die = 0 then g.fused0 else g.fused1) ≤ m.svn := by
  simp only [fwAccepts, Bool.and_eq_true, beq_iff_eq, decide_eq_true_eq, and_assoc, Nat.reduceMul]

/-- The boot record's slot is tried first (R434), so an image accepted there is the one booted. -/
theorem fwChoice_of_bootSlot_accepted {g : Glb} {die : Nat} {i : StageIn}
    (haccepts : fwAccepts g die (fwIn i g.bootSlot) = true) : fwChoice g die i = some g.bootSlot :=
  if_pos haccepts

end Sys2Proof.Machine

namespace Sys2Proof.Proofs

open Sys2Proof.Machine

/-- Settles O41: the six checks of a ROM, with the die as one of P0 and P1, and the slot that it tries first. -/
theorem firmwareAcceptsByRule : Obligations.firmware_accepts_by_rule := by
  unfold Obligations.firmware_accepts_by_rule
  refine ⟨fun g m d => ?accepted, fun g i d => fwChoice_of_bootSlot_accepted⟩
  case accepted =>
    have hdie : d.val = 0 ↔ d = 0 := Fin.val_eq_zero_iff
    simp only [fwAccepts_iff, hdie]

end Sys2Proof.Proofs

namespace Sys2Proof.Machine

/-! ## Edges on the field inputs (R35, R41, R486, R487) -/

/-- A command may change other fields before it writes a page header: the pages but that one are still as at its start. -/
theorem pagesBut_modHdr {s t : State} (hpgs : t.pgs = s.pgs) (pg : Nat) (f : PgHdr → PgHdr) :
    PagesBut [pg] s (modHdr t pg f) := fun q hq =>
  (hdrAt_modHdr_ne t f (List.mem_singleton.not.mp hq)).trans (hdrAt_congr hpgs q)

theorem pagesBut_bump {s t : State} (hpgs : t.pgs = s.pgs) (pg n : Nat) : PagesBut [pg] s (bump t pg n) :=
  pagesBut_modHdr hpgs pg _

theorem pagesBut_touch {s t : State} (hpgs : t.pgs = s.pgs) (pg : Nat) : PagesBut [pg] s (touch t pg) :=
  pagesBut_modHdr hpgs pg _

/-! ### TICK_IN -/

theorem execTickInEdge_accepted {s : State} {off : Int} {gap : Nat} (hline : lineOk s 0 = true) (hgap : 50000 ≤ gap)
    (hsrc : s.tck.src = 2) (hlow : -2000 ≤ off) (hhigh : off ≤ 2000) :
    execTickInEdge off gap s = .next (modTck s fun k =>
      { k with missed := 0, srcLost := false, holdover := false, phErr := edgeError k off }) := by
  have hinside : ¬ (off < -2000 ∨ 2000 < off) := by omega
  simp [execTickInEdge, hline, Nat.not_lt.mpr hgap, hsrc, hinside]

theorem execTickInEdge_tooEarly {s : State} {gap : Nat} (hline : lineOk s 0 = true) (hgap : gap < 50000) (off : Int) :
    execTickInEdge off gap s = .next (bump s pgTck 0) := by
  simp [execTickInEdge, hline, hgap]

/-- No limit on the gap is needed: an edge outside the window that also comes too early is counted all the same. -/
theorem execTickInEdge_outsideWindow {s : State} {off : Int} (hline : lineOk s 0 = true) (hsrc : s.tck.src = 2)
    (hplaced : s.tck.nextIndex = none) (houtside : off < -2000 ∨ 2000 < off) (gap : Nat) :
    execTickInEdge off gap s = .next (bump s pgTck 0) := by
  simp [execTickInEdge, hline, hsrc, hplaced, houtside]

/-- What every predicted boundary without an edge does: it is counted in PG_CNT1 and in the run of misses (R41). -/
def countMissedEdge (s : State) : State := bump (modTck s fun k => { k with missed := k.missed + 1 }) pgTck 1

@[simp] theorem countMissedEdge_tck (s : State) :
    (countMissedEdge s).tck = { s.tck with missed := s.tck.missed + 1 } := by
  simp [countMissedEdge]

/-- Of the run of misses only the third loses the source (R41). -/
theorem execTickInEdgeMissed_eq {s : State} (hsrc : s.tck.src = 2) (hrunning : s.tck.running = true) :
    execTickInEdgeMissed s =
      .next (if s.tck.missed = 2 then loseSource (countMissedEdge s) else countMissedEdge s) := by
  have hthird : (countMissedEdge s).tck.missed = 3 ↔ s.tck.missed = 2 := by simp
  simp only [execTickInEdgeMissed, hsrc, hrunning, and_self, if_true, ← hthird, countMissedEdge]

@[simp] theorem loseSource_tck (s : State) :
    (loseSource s).tck = { s.tck with srcLost := true, holdover := true, locked := false, goodTicks := 0 } := by
  simp [loseSource]

/-! ### PPS_IN -/

theorem execPpsInEdge_accepted {s : State} {gap w : Nat} (hline : lineOk s 1 = true) (hgap : 500000000 ≤ gap)
    (hwidth : 100 ≤ w) (p : Word64) :
    execPpsInEdge p gap w s = .next (touch (modTck s fun k => { k with pps := p }) pgTck) := by
  have hkeeps : ¬ (gap < 500000000 ∨ w < 100) := by omega
  simp [execPpsInEdge, hline, hkeeps]

theorem execPpsInEdge_stray {s : State} {gap w : Nat} (hline : lineOk s 1 = true)
    (hbreaks : gap < 500000000 ∨ w < 100) (p : Word64) : execPpsInEdge p gap w s = .next (bump s pgTck 0) := by
  simp [execPpsInEdge, hline, hbreaks]

/-! ### The TRIG inputs -/

theorem execTrigInputEdge_taken {s : State} {n : Fin 4} (hinput : trigIsInput s n = true)
    (hline : lineOk s (2 + n.val) = true) (p : Word64) :
    execTrigInputEdge n p s =
      .next (touch (modPwr s fun k => { k with trigTs := mset k.trigTs 0 n.val (p.setWidth 32) }) 2) := by
  simp [execTrigInputEdge, hinput, hline]

end Sys2Proof.Machine

namespace Sys2Proof.Proofs

open Sys2Proof.Machine

/-- Settles O10: the three inputs, each by what its command does with an edge inside the limits of R41 and R487 and with one
that breaks them. -/
theorem inputEdges : Obligations.input_edges := by
  unfold Obligations.input_edges
  refine ⟨fun s off gap hline hgap hsrc hlow hhigh => ?accepted, fun s off gap hline hstray => ?stray,
    fun s hsrc hrunning hmissed => ?miss, fun s hsrc hrunning hmissed => ?thirdMiss,
    fun s p gap w hline hgap hwidth => ?pps, fun s p gap w hline hbreaks => ?ppsStray,
    fun s n p hinput hline => ?trig⟩
  case accepted => exact execTickInEdge_accepted hline hgap hsrc hlow hhigh
  case stray =>
    obtain hgap | ⟨hsrc, hplaced, houtside⟩ := hstray
    · exact execTickInEdge_tooEarly hline hgap off
    · exact execTickInEdge_outsideWindow hline hsrc hplaced houtside gap
  case miss =>
    have hexec := execTickInEdgeMissed_eq hsrc hrunning
    rw [if_neg hmissed] at hexec
    exact ⟨_, hexec, pagesBut_bump rfl _ _, rfl⟩
  case thirdMiss =>
    have hexec := execTickInEdgeMissed_eq hsrc hrunning
    rw [if_pos hmissed] at hexec
    have htck := loseSource_tck (countMissedEdge s)
    exact ⟨_, hexec, by rw [htck], by rw [htck], by rw [htck]⟩
  case pps => exact ⟨_, execPpsInEdge_accepted hline hgap hwidth p, pagesBut_touch rfl _, rfl⟩
  case ppsStray => exact execPpsInEdge_stray hline hbreaks p
  case trig =>
    exact ⟨_, execTrigInputEdge_taken hinput hline p, pagesBut_touch rfl _, mget_mset_self ..,
      fun m hm => mget_mset_ne _ _ _ hm, rfl⟩

end Sys2Proof.Proofs
